-- ==== Sys2Proof/Word.lean ====
section
/-! DEFINITION. The word types of the SPI Configuration Adapter (00_scope R8, R9; 30_encoding R77, R78). -/

namespace Sys2Proof

/-- One byte: a unit of XFER8 and XFERBUF, and the bit-rate register (R8, R9 `BR_W`, `BUF_UNIT`). -/
abbrev Byte := BitVec 8

/-- One halfword: a unit of XFER16, and a command-register entry (R8, R9 `CMD_W`). -/
abbrev Half := BitVec 16

/-- A byte address of caller memory (R9 `ADDR_W`). -/
abbrev Addr := BitVec 32

/-- A frequency in hertz, unsigned (R9 `FREQ_W`, R76). -/
abbrev Freq := BitVec 32

/-- A request word (R77, R9 `REQ_W`). -/
abbrev ReqWord := BitVec 64

/-- The event callback's argument word (R78). -/
abbrev EvtWord := BitVec 32

end Sys2Proof
end

