-- ==== Sys2Proof/Config.lean ====
section
/-! DEFINITION. What an instance fixes and the block never writes (00_scope R9, R10; 10_state R38): the open
parameters, as constants without a body, the record `Params` that claims for every instance range over, and the
named premises about them. -/

namespace Sys2Proof

/-- The divider descriptor: `ratio` fills bits 11:2 of the command register, `base` feeds the bit-rate register
(10_state R26; 41_divider R131: these types make every descriptor well formed). -/
structure Descriptor where
  ratio : BitVec 10
  base : BitVec 32
  deriving DecidableEq, Repr, Inhabited

/-- The peripheral control handle `H`, opaque to the block (R38). -/
structure Handle where
  token : Nat
  deriving DecidableEq, Repr, Inhabited

/-- The base open configuration `BASE_CFG`, opaque to the block (R38). -/
structure BaseConfig where
  token : Nat
  deriving DecidableEq, Repr, Inhabited

/-- The parameters of one instance (00_scope R9). `NCMD` is not here: it is the length of the state's command
array. -/
structure Config.Params where
  /-- `H`: passed to every HAL call; no rule reads it (R16, R38). -/
  handle : Handle
  /-- `BASE_CFG`: passed to every `HalOpen`, the same at every call (R32, R38). -/
  baseCfg : BaseConfig
  /-- `CMD_ADDR(i)`: symbolic; no rule computes with it (20_memory R51). -/
  cmdAddr : Nat → Nat
  /-- `BR_ADDR`: symbolic; no rule computes with it (20_memory R51). -/
  brAddr : Nat
  /-- `CMD_OPEN_DEFAULT`: `CMD[0]` right after a `HalOpen` (10_state R32). -/
  cmdOpenDefault : Half
  /-- `BR_OPEN_DEFAULT`: `BR` right after a `HalOpen` (10_state R32). -/
  brOpenDefault : Byte
  /-- `SEED`: the extended configuration's default divisor (10_state R38). -/
  seed : Descriptor
  /-- `CalcDiv`: the HAL's frequency-to-descriptor function; `none` is a failed call (41_divider R130, R133). The
  type has well-formed answers only: `configureInstance` is the check of R131 that admits an instance. -/
  calcDiv : Freq → Option Descriptor
  /-- `Rate`: the achieved bit rate of a descriptor in hertz (41_divider R132). -/
  rate : Descriptor → Rat
  /-- `END_CLOSES`: whether `end()` also closes the HAL session (00_scope R10). -/
  endCloses : Bool
  /-- What `CMD[0]` holds after the n-th draw's `HalClose`: any value (10_state R33). -/
  cmdAfterClose : Nat → Half
  /-- What `BR` holds after the n-th draw's `HalClose`: any value (10_state R33). -/
  brAfterClose : Nat → Byte
  /-- The bus oracle: unit `i`, `w` bits wide, of the exchange at draw `n`: any value (43_transfer R163). -/
  busUnit : (w n i : Nat) → BitVec w

namespace Config

/-- `H` (R9, OPEN). -/
opaque handle : Handle
/-- `BASE_CFG` (R9, OPEN). -/
opaque baseCfg : BaseConfig
/-- `CMD_ADDR(i)` (R9, OPEN). -/
opaque cmdAddr : Nat → Nat
/-- `BR_ADDR` (R9, OPEN). -/
opaque brAddr : Nat
/-- `CMD_OPEN_DEFAULT` (R9, OPEN). -/
opaque cmdOpenDefault : Half
/-- `BR_OPEN_DEFAULT` (R9, OPEN). -/
opaque brOpenDefault : Byte
/-- `SEED` (R9, OPEN). -/
opaque seed : Descriptor
/-- `CalcDiv` (R9, OPEN). -/
opaque calcDiv : Freq → Option Descriptor
/-- `Rate` (R9, OPEN). -/
opaque rate : Descriptor → Rat
/-- Free value: `CMD[0]` after a close (10_state R33; log 4). -/
opaque cmdAfterClose : Nat → Half
/-- Free value: `BR` after a close (10_state R33; log 4). -/
opaque brAfterClose : Nat → Byte
/-- Free value: a unit received from the serial bus (43_transfer R163; log 3). -/
opaque busUnit : (w n i : Nat) → BitVec w

/-- This machine's parameters: every open one is the constant above, and `END_CLOSES` has its decided default
`false` (R10; log 9). -/
def params : Params where
  handle := Config.handle
  baseCfg := Config.baseCfg
  cmdAddr := Config.cmdAddr
  brAddr := Config.brAddr
  cmdOpenDefault := Config.cmdOpenDefault
  brOpenDefault := Config.brOpenDefault
  seed := Config.seed
  calcDiv := Config.calcDiv
  rate := Config.rate
  endCloses := false
  cmdAfterClose := Config.cmdAfterClose
  brAfterClose := Config.brAfterClose
  busUnit := Config.busUnit

end Config

/-- `OpenDefaultClean`: bits 12:0 of the open default are 0 (10_state R36). -/
def Config.Params.OpenDefaultClean (c : Config.Params) : Prop :=
  c.cmdOpenDefault.extractLsb' 0 13 = 0#13

/-- `OpenDefaultModeClean`: bits 1:0 and 12 of the open default are 0 (10_state R36). -/
def Config.Params.OpenDefaultModeClean (c : Config.Params) : Prop :=
  c.cmdOpenDefault.extractLsb' 0 2 = 0#2 ∧ c.cmdOpenDefault.extractLsb' 12 1 = 0#1

/-- `RateNotExceeded`: a computed descriptor's rate is at most the requested frequency (41_divider R132). -/
def Config.Params.RateNotExceeded (c : Config.Params) : Prop :=
  ∀ (freq : Freq) (d : Descriptor), freq ≠ 0 → c.calcDiv freq = some d → c.rate d ≤ (freq.toNat : Rat)

/-- `RateClosestBelow`: the computed descriptor is one that the peripheral accepts with a rate of at most the
frequency, and has the greatest rate among them (41_divider R134, 90_conflicts C2). Which descriptors the peripheral
accepts is `accepts`. -/
def Config.Params.RateClosestBelow (c : Config.Params) (accepts : Descriptor → Prop) : Prop :=
  ∀ (freq : Freq) (d : Descriptor), freq ≠ 0 → c.calcDiv freq = some d →
    accepts d ∧ c.rate d ≤ (freq.toNat : Rat) ∧
      ∀ d' : Descriptor, accepts d' → c.rate d' ≤ (freq.toNat : Rat) → c.rate d' ≤ c.rate d

/-- The register addresses are pairwise distinct and the 16-bit entries and the 8-bit register do not overlap
(20_memory R51), for an array of `ncmd` entries. DESIGN CHOICE (log 22): the unit of a register address is the byte, so
an entry spans two addresses and `BR` one; the spec gives the register space no unit. -/
def Config.Params.RegistersDistinct (c : Config.Params) (ncmd : Nat) : Prop :=
  (∀ i j, i < ncmd → j < ncmd → i ≠ j → c.cmdAddr i + 2 ≤ c.cmdAddr j ∨ c.cmdAddr j + 2 ≤ c.cmdAddr i) ∧
  (∀ i, i < ncmd → c.cmdAddr i + 2 ≤ c.brAddr ∨ c.brAddr + 1 ≤ c.cmdAddr i)

end Sys2Proof
end

