-- ==== Sys2Proof/Syntax.lean ====
section
/-! DEFINITION. The operations of the block: one constructor per row of the operation map (30_encoding R80, opcode_table.json). -/

namespace Sys2Proof

/-- The eleven requests and the one event (30_encoding R80). The operand widths are those of R77 and R78. -/
inductive Instr where
  /-- BEGIN: `begin()` (R150). -/
  | opBegin
  /-- END: `end()` (R151). -/
  | opEnd
  /-- BEGINTRANS: `beginTransaction(settings)`, also `applyTransactionSettings(settings)` (R100). -/
  | beginTrans (mode : BitVec 2) (order : Byte) (freq : Freq)
  /-- ENDTRANS: `endTransaction()` (R152). -/
  | endTrans
  /-- XFER8: `transfer(byte)` (R160). -/
  | xfer8 (data : Byte)
  /-- XFER16: `transfer(halfword)` (R161). -/
  | xfer16 (data : Half)
  /-- XFERBUF: `transfer(buffer,count)` (R162). -/
  | xferBuf (addr : Addr) (count : BitVec 24)
  /-- USINGINT: `usingInterrupt(id)` (R170). -/
  | usingInt (id : BitVec 32)
  /-- NOTUSINGINT: `notUsingInterrupt(id)` (R171). -/
  | notUsingInt (id : BitVec 32)
  /-- ATTACHINT: `attachInterrupt` (R172). -/
  | attachInt
  /-- DETACHINT: `detachInterrupt` (R173). -/
  | detachInt
  /-- CALLBACK: the HAL's event callback, on its own port (R174). -/
  | callback (evt : EvtWord)
  deriving DecidableEq, Repr

end Sys2Proof
end

