-- ==== Sys2Proof/WellFormed.lean ====
section
/-! DEFINITION. The value checks on operands (30_encoding R82, R83). -/

namespace Sys2Proof

/-- A buffer of `count` units at `addr` stays inside the 32-bit address space (20_memory R52, 43_transfer R162). -/
def bufferFits (addr : Addr) (count : BitVec 24) : Bool :=
  decide (addr.toNat + count.toNat ≤ 2 ^ 32)

/-- An instruction meets the input constraints of R82: a positive frequency and a buffer that does not wrap.
Every other operand value is legal. -/
def Instr.wf : Instr → Bool
  | .beginTrans _ _ freq => freq != 0
  | .xferBuf addr count => bufferFits addr count
  | .opBegin => true
  | .opEnd => true
  | .endTrans => true
  | .xfer8 _ => true
  | .xfer16 _ => true
  | .usingInt _ => true
  | .notUsingInt _ => true
  | .attachInt => true
  | .detachInt => true
  | .callback _ => true

end Sys2Proof
end

