-- ==== Sys2Proof/Decode.lean ====
section
/-! DEFINITION. The request decoder, the event port and the encoder (30_encoding R77 to R83). -/

namespace Sys2Proof

/-- What reaches the adapter: a request word from the caller, or an event word on the HAL's port (R77, R78). -/
inductive Input where
  | request (w : ReqWord)
  | event (e : EvtWord)
  deriving DecidableEq, Repr

/-- Why the decoder turns a request word away (R82, R187). -/
inductive Reject where
  /-- `op` is 0x0 or 0xC to 0xF. -/
  | unknownOp
  /-- A reserved bit of the matched format is 1. -/
  | reservedBits
  /-- BEGINTRANS with `freq = 0`. -/
  | freqZero
  /-- XFERBUF with `addr + count > 2^32`. -/
  | bufferWraps
  deriving DecidableEq, Repr

/-- A row of the operation map: a word `w` selects it when `w &&& mask = pattern` (R80). -/
structure OpRow where
  mnemonic : String
  mask : ReqWord
  pattern : ReqWord
  deriving DecidableEq, Repr

def rowBegin : OpRow := ⟨"BEGIN", 0xFFFFFFFFFFFFFFFF#64, 0x0000000000000001#64⟩
def rowEnd : OpRow := ⟨"END", 0xFFFFFFFFFFFFFFFF#64, 0x0000000000000002#64⟩
def rowBeginTrans : OpRow := ⟨"BEGINTRANS", 0x00000000FFFF00CF#64, 0x0000000000000003#64⟩
def rowEndTrans : OpRow := ⟨"ENDTRANS", 0xFFFFFFFFFFFFFFFF#64, 0x0000000000000004#64⟩
def rowXfer8 : OpRow := ⟨"XFER8", 0xFFFFFFFFFF00FFFF#64, 0x0000000000000005#64⟩
def rowXfer16 : OpRow := ⟨"XFER16", 0xFFFFFFFF0000FFFF#64, 0x0000000000000006#64⟩
def rowXferBuf : OpRow := ⟨"XFERBUF", 0x00000000000000FF#64, 0x0000000000000007#64⟩
def rowUsingInt : OpRow := ⟨"USINGINT", 0x00000000FFFFFFFF#64, 0x0000000000000008#64⟩
def rowNotUsingInt : OpRow := ⟨"NOTUSINGINT", 0x00000000FFFFFFFF#64, 0x0000000000000009#64⟩
def rowAttachInt : OpRow := ⟨"ATTACHINT", 0xFFFFFFFFFFFFFFFF#64, 0x000000000000000A#64⟩
def rowDetachInt : OpRow := ⟨"DETACHINT", 0xFFFFFFFFFFFFFFFF#64, 0x000000000000000B#64⟩

/-- The operation map's match and mask table, in the order of R80. -/
def opTable : List OpRow :=
  [rowBegin, rowEnd, rowBeginTrans, rowEndTrans, rowXfer8, rowXfer16, rowXferBuf, rowUsingInt,
    rowNotUsingInt, rowAttachInt, rowDetachInt]

/-- A word selects a row (R80). -/
def OpRow.selects (r : OpRow) (w : ReqWord) : Bool :=
  w &&& r.mask == r.pattern

/-- Operand fields of a request word (R81). -/
def reqOp (w : ReqWord) : BitVec 4 := w.extractLsb' 0 4
def reqMode (w : ReqWord) : BitVec 2 := w.extractLsb' 4 2
def reqOrder (w : ReqWord) : Byte := w.extractLsb' 8 8
def reqFreq (w : ReqWord) : Freq := w.extractLsb' 32 32
def reqData8 (w : ReqWord) : Byte := w.extractLsb' 16 8
def reqData16 (w : ReqWord) : Half := w.extractLsb' 16 16
def reqAddr (w : ReqWord) : Addr := w.extractLsb' 32 32
def reqCount (w : ReqWord) : BitVec 24 := w.extractLsb' 8 24
def reqId (w : ReqWord) : BitVec 32 := w.extractLsb' 32 32

/-- The mask check of R83 for the row that `op` selected. -/
def checkReserved (r : OpRow) (w : ReqWord) (i : Instr) : Except Reject Instr :=
  if r.selects w then .ok i else .error .reservedBits

/-- The decoder up to the value checks (R83): look up `op`, check the reserved bits, extract the operands. -/
def decodeFields (w : ReqWord) : Except Reject Instr :=
  match (reqOp w).toNat with
  | 0x1 => checkReserved rowBegin w .opBegin
  | 0x2 => checkReserved rowEnd w .opEnd
  | 0x3 => checkReserved rowBeginTrans w (.beginTrans (reqMode w) (reqOrder w) (reqFreq w))
  | 0x4 => checkReserved rowEndTrans w .endTrans
  | 0x5 => checkReserved rowXfer8 w (.xfer8 (reqData8 w))
  | 0x6 => checkReserved rowXfer16 w (.xfer16 (reqData16 w))
  | 0x7 => checkReserved rowXferBuf w (.xferBuf (reqAddr w) (reqCount w))
  | 0x8 => checkReserved rowUsingInt w (.usingInt (reqId w))
  | 0x9 => checkReserved rowNotUsingInt w (.notUsingInt (reqId w))
  | 0xA => checkReserved rowAttachInt w .attachInt
  | 0xB => checkReserved rowDetachInt w .detachInt
  | _ => .error .unknownOp

/-- The value checks of R82 that R83 puts after the extraction. -/
def checkValues (i : Instr) : Except Reject Instr :=
  match i with
  | .beginTrans _ _ freq => if freq = 0 then .error .freqZero else .ok i
  | .xferBuf addr count => if bufferFits addr count then .ok i else .error .bufferWraps
  | .opBegin => .ok i
  | .opEnd => .ok i
  | .endTrans => .ok i
  | .xfer8 _ => .ok i
  | .xfer16 _ => .ok i
  | .usingInt _ => .ok i
  | .notUsingInt _ => .ok i
  | .attachInt => .ok i
  | .detachInt => .ok i
  | .callback _ => .ok i

/-- The request decoder of R83, total on 64-bit words; it reads no state. -/
def decodeRequest (w : ReqWord) : Except Reject Instr :=
  match decodeFields w with
  | .ok i => checkValues i
  | .error r => .error r

/-- The fields of an input: every event word is CALLBACK (R78). -/
def inputFields : Input → Except Reject Instr
  | .request w => decodeFields w
  | .event e => .ok (.callback e)

/-- The whole decoding of an input (R78, R83). -/
def decodeInput : Input → Except Reject Instr
  | .request w => decodeRequest w
  | .event e => .ok (.callback e)

/-- A field whose lowest bit is bit `lo` of a request word, every other bit 0. -/
def placeAt {n : Nat} (v : BitVec n) (lo : Nat) : ReqWord := v.setWidth 64 <<< lo

/-- Format N: no operand (R77). -/
def wordN (op : BitVec 4) : ReqWord := placeAt op 0

/-- Format S: settings (R77). -/
def wordS (mode : BitVec 2) (order : Byte) (freq : Freq) (op : BitVec 4) : ReqWord :=
  placeAt freq 32 ||| placeAt order 8 ||| placeAt mode 4 ||| placeAt op 0

/-- Format D: data, one halfword of it for XFER16 and one byte for XFER8 (R77). -/
def wordD {n : Nat} (data : BitVec n) (op : BitVec 4) : ReqWord := placeAt data 16 ||| placeAt op 0

/-- Format B: a buffer (R77). -/
def wordB (addr : Addr) (count : BitVec 24) (op : BitVec 4) : ReqWord :=
  placeAt addr 32 ||| placeAt count 8 ||| placeAt op 0

/-- Format I: an interrupt id (R77). -/
def wordI (id : BitVec 32) (op : BitVec 4) : ReqWord := placeAt id 32 ||| placeAt op 0

/-- The encoder: the words of R77, R78 and R80 written from the operation map. -/
def encode : Instr → Input
  | .opBegin => .request (wordN 0x1#4)
  | .opEnd => .request (wordN 0x2#4)
  | .beginTrans mode order freq => .request (wordS mode order freq 0x3#4)
  | .endTrans => .request (wordN 0x4#4)
  | .xfer8 data => .request (wordD data 0x5#4)
  | .xfer16 data => .request (wordD data 0x6#4)
  | .xferBuf addr count => .request (wordB addr count 0x7#4)
  | .usingInt id => .request (wordI id 0x8#4)
  | .notUsingInt id => .request (wordI id 0x9#4)
  | .attachInt => .request (wordN 0xA#4)
  | .detachInt => .request (wordN 0xB#4)
  | .callback evt => .event evt

/-- The mnemonic of R80. -/
def Instr.mnemonic : Instr → String
  | .opBegin => "BEGIN"
  | .opEnd => "END"
  | .beginTrans _ _ _ => "BEGINTRANS"
  | .endTrans => "ENDTRANS"
  | .xfer8 _ => "XFER8"
  | .xfer16 _ => "XFER16"
  | .xferBuf _ _ => "XFERBUF"
  | .usingInt _ => "USINGINT"
  | .notUsingInt _ => "NOTUSINGINT"
  | .attachInt => "ATTACHINT"
  | .detachInt => "DETACHINT"
  | .callback _ => "CALLBACK"

/-- The input that a word of the opcode table stands for: the table gives 32 bits to the event row alone and
64 bits to every request (opcode_table.json; log 19). -/
def inputOfTableWord (nbits w : Nat) : Input :=
  if nbits = 32 then .event (BitVec.ofNat 32 w) else .request (BitVec.ofNat 64 w)

/-- The instruction the decoder reads from an opcode-table word. The value checks are left to the meaning, as
T87 of 95_test_vectors has it: the word decodes and is then refused (log 14). -/
def decodeTableWord (nbits w : Nat) : Option Instr :=
  match inputFields (inputOfTableWord nbits w) with
  | .ok i => some i
  | .error _ => none

end Sys2Proof
end

