-- ==== Sys2Proof/Machine/State.lean ====
section
/-! DEFINITION. The state of the block as 10_state R20 lists it, the reasons a step can stop (60_exceptions R186,
R187), and the state after reset (10_state R40). -/

namespace Sys2Proof.Machine

/-- Clock phase: ODD-edge is 0, EVEN-edge is 1 (30_encoding R74). -/
inductive ClockPhase where
  | oddEdge
  | evenEdge
  deriving DecidableEq, Repr

/-- Clock polarity: LOW is 0, HIGH is 1 (30_encoding R74). -/
inductive ClockPolarity where
  | low
  | high
  deriving DecidableEq, Repr

/-- Cached bit order: MSB_FIRST is 0, LSB_FIRST is 1 (30_encoding R74). -/
inductive BitOrder where
  | msbFirst
  | lsbFirst
  deriving DecidableEq, Repr

/-- The sequencer (10_state R28): IDLE between operations, S1 to S9 inside BEGINTRANS, RUN inside every other
operation. -/
inductive Seq where
  | idle
  | run
  | s1
  | s2
  | s3
  | s4
  | s5
  | s6
  | s7
  | s8
  | s9
  deriving DecidableEq, Repr

/-- The events of the history (20_memory R58). The two widths of `WriteRead` are two constructors. -/
inductive Event where
  | halOpen
  | halClose
  | calcBitrate (freq : Freq)
  | writeRead8 (count : Nat) (tx rx : List Byte)
  | writeRead16 (count : Nat) (tx rx : List Half)
  | regReadCmd (v : Half)
  | regReadBr (v : Byte)
  | regWriteCmd (v : Half)
  | regWriteBr (v : Byte)
  | memRead (a : Addr) (v : Byte)
  | memWrite (a : Addr) (v : Byte)
  deriving DecidableEq, Repr

/-- A response: `RSP[7:0]` of XFER8 or `RSP[15:0]` of XFER16 (30_encoding R79). -/
inductive Response where
  | byte (v : Byte)
  | half (v : Half)
  deriving DecidableEq, Repr

/-- Caller memory (20_memory R52): the listed cells in rising address order, none of them equal to what an
unlisted address reads as. -/
abbrev Memory := List Host.Cell

/-- The machine's faults. None is signalled by the hardware (60_exceptions R180): each says the source gives the
situation no meaning. -/
inductive Fault where
  /-- Raised by `HalOpen` (in BEGIN and BEGINTRANS step 5) with the session open (R32, R186). Safe: the hardware
  goes on silently where the model stops. -/
  | openWhileOpen
  /-- Raised by `HalWriteRead` (in XFER8, XFER16, XFERBUF) with the session closed (R35, R186). Safe. -/
  | transferNotOpen
  /-- Raised by `HalClose` with the session closed, a call outside its contract (R31, R33). No run reaches it
  (R39; log 13). Safe. -/
  | closeWhileClosed
  /-- Raised by the step when an input is to be taken and `seq` is not IDLE (R28). No run reaches it (log 13).
  Safe. -/
  | notIdle
  deriving DecidableEq, Repr

/-- The machine's refusals: a word or an instance outside the model (60_exceptions R187). -/
inductive Refusal where
  /-- An arm of exec whose instruction has no meaning yet. Safe. No arm of this model answers it. -/
  | notModelled (mnemonic : String)
  /-- Raised by the decoder: `op` is 0x0 or 0xC to 0xF (R82). Safe. -/
  | unknownOp
  /-- Raised by the decoder: a reserved bit is 1 (R82). Safe. -/
  | reservedBits
  /-- Raised by the decoder and by BEGINTRANS: `freq = 0` (R82, R100). Safe. -/
  | freqZero
  /-- Raised by the call surface: a `dataMode` above 3 (R82, R101). A request word cannot spell it. Safe. -/
  | badMode
  /-- Raised by the decoder and by XFERBUF: `addr + count > 2^32` (R82, R162). Safe. -/
  | bufferWraps
  /-- Raised by `configureInstance`: SEED or an answer of CalcDiv has a ratio of 1024 or more (41_divider R131). No
  step raises it.
  Safe. -/
  | badDescriptor
  deriving DecidableEq, Repr

/-- The complete state (10_state R20), the responses returned (30_encoding R79, 70 R204), and two fields of the
model's own: the inputs not yet taken and the counter of the free values. -/
structure State where
  /-- Cached phase of the last-applied settings (R21). -/
  clockPhase : ClockPhase
  /-- Cached polarity (R22). -/
  clockPolarity : ClockPolarity
  /-- Cached bit order (R23). -/
  bitOrder : BitOrder
  /-- The flag `initialized` (R24): what the adapter believes of the session. -/
  initialized : Bool
  /-- The transient divider descriptor; `none` when not live (R26). -/
  dd : Option Descriptor
  /-- The sequencer (R28). -/
  seq : Seq
  /-- `CMD[0]`, the command register (R27). -/
  cmd0 : Half
  /-- `CMD[1 .. NCMD-1]`, never accessed (R29). -/
  cmdRest : List Half
  /-- `BR`, the bit-rate register (R29). -/
  br : Byte
  /-- `hal_open`, the HAL's own session state (R30). -/
  halOpen : Bool
  /-- `Mem`, caller memory (20_memory R52). -/
  mem : Memory
  /-- `hist`, the event history, oldest first (20_memory R58). -/
  hist : List Event
  /-- The responses returned, oldest first (R79, R204; log 2). -/
  responses : List Response
  /-- The inputs presented and not yet taken, in order (the model's own; log 1). -/
  pending : List Input
  /-- The index of the next free value (the model's own; log 3). -/
  draws : Nat
  deriving DecidableEq, Repr

/-- Right after construction (10_state R40, 70 R200, R201). The spec leaves `CMD[0]`, `BR`, the other entries and
`Mem` unspecified: their values here are named in logs 5, 6 and 7, and no statement rests on them. -/
def State.reset : State where
  clockPhase := .oddEdge
  clockPolarity := .low
  bitOrder := .msbFirst
  initialized := false
  dd := none
  seq := .idle
  cmd0 := 0x0000#16
  cmdRest := []
  br := 0x00#8
  halOpen := false
  mem := []
  hist := []
  responses := []
  pending := []
  draws := 0

end Sys2Proof.Machine
end

