-- ==== Sys2Proof/Machine/Memory.lean ====
section
/-! DEFINITION. Reading and writing one byte of caller memory in its canonical form (20_memory R52). -/

namespace Sys2Proof.Machine

/-- What an address that nothing has written reads as. The spec leaves the initial contents to the caller
(10_state R40); the byte 0x00 is this model's choice (log 7). -/
def Memory.unlisted : Byte := 0x00#8

/-- The byte at address `a`. -/
def Memory.read : Memory → Nat → Byte
  | [], _ => Memory.unlisted
  | (k, x) :: m, a => if k = a then x else Memory.read m a

/-- A cell in front of a memory, left out when it holds what an unlisted address reads as. -/
def Memory.consCell (a : Nat) (v : Byte) (m : Memory) : Memory :=
  if v = Memory.unlisted then m else (a, v) :: m

/-- Write one byte, keeping the canonical form. -/
def Memory.write : Memory → Nat → Byte → Memory
  | [], a, v => Memory.consCell a v []
  | (k, x) :: m, a, v =>
    if a < k then Memory.consCell a v ((k, x) :: m)
    else if a = k then Memory.consCell a v m
    else (k, x) :: Memory.write m a v

/-- The canonical form: addresses inside the 32-bit space and strictly rising, no cell equal to what an unlisted
address reads as. -/
def Memory.wf : Memory → Bool
  | [] => true
  | (k, x) :: m =>
    decide (k < 2 ^ 32) && x != Memory.unlisted && m.all (fun cell => decide (k < cell.1)) && Memory.wf m

end Sys2Proof.Machine
end

