-- ==== Sys2Proof/Machine/Operands.lean ====
section
/-! DEFINITION. The pure micro-operations and the fields of the command register: MODEDEC, ORDDEC, PACK, BRVAL
(40_configure R101, R103, R102, R105) and the layout of `CMD[0]` (30_encoding R71). -/

namespace Sys2Proof.Machine

/-- The value encoding of a phase (30_encoding R74). -/
def ClockPhase.bit : ClockPhase → BitVec 1
  | .oddEdge => 0#1
  | .evenEdge => 1#1

/-- The value encoding of a polarity (30_encoding R74). -/
def ClockPolarity.bit : ClockPolarity → BitVec 1
  | .low => 0#1
  | .high => 1#1

/-- The value encoding of a bit order (30_encoding R74). -/
def BitOrder.bit : BitOrder → BitVec 1
  | .msbFirst => 0#1
  | .lsbFirst => 1#1

/-- MODEDEC: the mode table (40_configure R101, 30_encoding R73). -/
def modeDec (mode : BitVec 2) : ClockPolarity × ClockPhase :=
  match mode.toNat with
  | 0 => (.low, .oddEdge)
  | 1 => (.low, .evenEdge)
  | 2 => (.high, .oddEdge)
  | _ => (.high, .evenEdge)

/-- `LSB_FIRST_CODE`, the one caller code that means LSB-first (30_encoding R75). -/
def lsbFirstCode : Byte := 0x00#8

/-- ORDDEC: the bit-order mapping; every other code is MSB-first, not an error (40_configure R103). -/
def ordDec (order : Byte) : BitOrder :=
  if order = lsbFirstCode then .lsbFirst else .msbFirst

/-- PACK: the bit-packer, OR only (40_configure R102). -/
def pack (old : Half) (pha pol : BitVec 1) (ratio : BitVec 10) (ord : BitVec 1) : Half :=
  (old.setWidth 32 ||| pha.setWidth 32 ||| (pol.setWidth 32 <<< 1) ||| (ratio.setWidth 32 <<< 2) |||
    (ord.setWidth 32 <<< 12)).setWidth 16

/-- BRVAL: the bit-rate register value (40_configure R105). -/
def brVal (dd : Descriptor) : Byte :=
  dd.base.setWidth 8

/-- The fields of the command register (30_encoding R71). -/
def cmdPha (v : Half) : BitVec 1 := v.extractLsb' 0 1
def cmdPol (v : Half) : BitVec 1 := v.extractLsb' 1 1
def cmdDivr (v : Half) : BitVec 10 := v.extractLsb' 2 10
def cmdOrd (v : Half) : BitVec 1 := v.extractLsb' 12 1
def cmdKept (v : Half) : BitVec 3 := v.extractLsb' 13 3

/-- The field masks of R71. -/
def maskPha : Half := 0x0001#16
def maskPol : Half := 0x0002#16
def maskDivr : Half := 0x0FFC#16
def maskOrd : Half := 0x1000#16
def maskKept : Half := 0xE000#16

end Sys2Proof.Machine
end

