-- ==== Sys2Proof/Machine/Ops.lean ====
section
/-! DEFINITION. The named operations: one update per cell, register and memory access (00_scope R15), the HAL calls
with their contract (10_state R31 to R35), and the taking of one input (60_exceptions R185). The block has no
exception entry and no return from one (60_exceptions R181, R182), so no such operation stands here. -/

namespace Sys2Proof.Machine

/-- What an operation or a sub-step with a value answers. -/
abbrev Result (α : Type) := Host.Outcome α Fault Refusal

/-- Go on with the next sub-step, unless the one before stopped. -/
def andThen {α β : Type} (o : Result α) (f : α → Result β) : Result β :=
  match o with
  | .next a => f a
  | .fault r => .fault r
  | .refused r => .refused r

/-- Write the two cached mode cells (40_configure R100 S1). -/
def State.withMode (s : State) (pol : ClockPolarity) (pha : ClockPhase) : State :=
  { s with clockPolarity := pol, clockPhase := pha }

/-- Write the cached bit order (S2). -/
def State.withOrder (s : State) (ord : BitOrder) : State := { s with bitOrder := ord }

/-- Write the flag `initialized` (10_state R24). -/
def State.withInitialized (s : State) (b : Bool) : State := { s with initialized := b }

/-- Write the transient descriptor (10_state R26). -/
def State.withDd (s : State) (d : Option Descriptor) : State := { s with dd := d }

/-- Move the sequencer (10_state R28). -/
def State.withSeq (s : State) (q : Seq) : State := { s with seq := q }

/-- Replace `CMD[0]` whole (20_memory R53, R55). -/
def State.withCmd0 (s : State) (v : Half) : State := { s with cmd0 := v }

/-- Replace `BR` whole (20_memory R53, R55). -/
def State.withBr (s : State) (v : Byte) : State := { s with br := v }

/-- Write the HAL's session state (10_state R30). -/
def State.withHalOpen (s : State) (b : Bool) : State := { s with halOpen := b }

/-- Replace the caller memory. -/
def State.withMem (s : State) (m : Memory) : State := { s with mem := m }

/-- Record an event at the end of the history (20_memory R58). -/
def State.record (s : State) (e : Event) : State := { s with hist := s.hist ++ [e] }

/-- Return a response to the caller (30_encoding R79). -/
def State.respond (s : State) (r : Response) : State := { s with responses := s.responses ++ [r] }

/-- Replace the inputs not yet taken. -/
def State.withPending (s : State) (l : List Input) : State := { s with pending := l }

/-- Pass on to the next free value (log 3). -/
def State.drawn (s : State) : State := { s with draws := s.draws + 1 }

/-- `RegRead(CMD[0])`: the current value, recorded; no side effect (20_memory R54, R58). DESIGN CHOICE (log 24): a
register access acts on its cell whatever the session is; the spec does not define one on a closed session, which
never arises (10_state R37). -/
def regReadCmd (s : State) : Half × State := (s.cmd0, s.record (.regReadCmd s.cmd0))

/-- `RegRead(BR)` (20_memory R54). Every read of `BR` is optional (40_configure R100 S6, S9) and BEGINTRANS makes
none (log 11). On a closed session: log 24. -/
def regReadBr (s : State) : Byte × State := (s.br, s.record (.regReadBr s.br))

/-- `RegWrite(CMD[0], v)` (20_memory R55). On a closed session: log 24. -/
def regWriteCmd (v : Half) (s : State) : State := (s.withCmd0 v).record (.regWriteCmd v)

/-- `RegWrite(BR, v)` (20_memory R55). On a closed session: log 24. -/
def regWriteBr (v : Byte) (s : State) : State := (s.withBr v).record (.regWriteBr v)

/-- `MemRead(a, 1)` (00_scope R15). -/
def memRead (a : Addr) (s : State) : Byte × State :=
  (s.mem.read a.toNat, s.record (.memRead a (s.mem.read a.toNat)))

/-- `MemWrite(a, 1, v)` (00_scope R15). -/
def memWrite (a : Addr) (v : Byte) (s : State) : State :=
  (s.withMem (s.mem.write a.toNat v)).record (.memWrite a v)

/-- `HalOpen(H, BASE_CFG)` (10_state R32): on a closed session it opens it and loads the open defaults; on an open
one it is outside its contract. -/
def halOpen (c : Config.Params) (s : State) : Result State :=
  if s.halOpen then .fault .openWhileOpen
  else .next ((((s.withHalOpen true).withCmd0 c.cmdOpenDefault).withBr c.brOpenDefault).record .halOpen)

/-- `HalClose(H)` (10_state R33): the registers hold free values afterwards; a closed session is outside its
contract (R31; log 13). -/
def halClose (c : Config.Params) (s : State) : Result State :=
  if s.halOpen then
    .next ((((s.withHalOpen false).withCmd0 (c.cmdAfterClose s.draws)).withBr (c.brAfterClose s.draws)).drawn.record
      .halClose)
  else .fault .closeWhileClosed

/-- `HalCalcBitrate(F, dd)` (10_state R34): the computed descriptor, or `dd` where the call fails. That a failed call
leaves `dd` is the spec's own reading (92_eei_decisions D9; log 23). -/
def halCalcBitrate (c : Config.Params) (freq : Freq) (dd : Descriptor) (s : State) : Descriptor × State :=
  ((c.calcDiv freq).getD dd, s.record (.calcBitrate freq))

/-- The `count` units of width `w` that the exchange at this draw receives (43_transfer R163). -/
def busUnits (c : Config.Params) (w n count : Nat) : List (BitVec w) :=
  (List.range count).map (fun i => c.busUnit w n i)

/-- `HalWriteRead(H, tx, rx, 1, 8)` for one byte (10_state R35). -/
def halWriteRead8 (c : Config.Params) (tx : Byte) (s : State) : Result (Byte × State) :=
  if s.halOpen then
    .next (c.busUnit 8 s.draws 0, s.drawn.record (.writeRead8 1 [tx] [c.busUnit 8 s.draws 0]))
  else .fault .transferNotOpen

/-- `HalWriteRead(H, tx, rx, 1, 16)` for one halfword (10_state R35). -/
def halWriteRead16 (c : Config.Params) (tx : Half) (s : State) : Result (Half × State) :=
  if s.halOpen then
    .next (c.busUnit 16 s.draws 0, s.drawn.record (.writeRead16 1 [tx] [c.busUnit 16 s.draws 0]))
  else .fault .transferNotOpen

/-- The memory accesses of a buffer exchange (20_memory R65): per unit a read of the original content and then a
write of the received unit, at rising addresses that wrap modulo 2^32 (R52). Answers the transmitted units. -/
def exchangeUnits : List Byte → Addr → State → List Byte × State
  | [], _, s => ([], s)
  | r :: rs, a, s =>
    let read := memRead a s
    let rest := exchangeUnits rs (a + 1#32) (memWrite a r read.2)
    (read.1 :: rest.1, rest.2)

/-- `HalWriteRead` on a buffer in place, 8-bit units (10_state R35, 43_transfer R162). -/
def halWriteReadBuffer (c : Config.Params) (addr : Addr) (count : Nat) (s : State) : Result State :=
  if s.halOpen then
    let rx := busUnits c 8 s.draws count
    let done := exchangeUnits rx addr s.drawn
    .next (done.2.record (.writeRead8 count done.1 rx))
  else .fault .transferNotOpen

/-- An operation other than BEGINTRANS: `seq` is RUN while it runs and IDLE when it returns (10_state R28). -/
def runOp (body : State → Result State) (s : State) : Result State :=
  andThen (body (s.withSeq .run)) (fun t => .next (t.withSeq .idle))

/-- The machine's refusal for a decoder's verdict (60_exceptions R187). -/
def refusalOf : Reject → Refusal
  | .unknownOp => .unknownOp
  | .reservedBits => .reservedBits
  | .freqZero => .freqZero
  | .bufferWraps => .bufferWraps

/-- Take the next input and run it (10_state R28, 60_exceptions R185): with none pending the block waits (70 R200;
log 1); an input the decoder refuses stops the run (R187); a decoded one is run on the state without it. -/
def acceptNext (run : Instr → State → Result State) (s : State) : Result State :=
  match s.pending with
  | [] => .next s
  | inp :: rest =>
    if s.seq = .idle then
      match decodeInput inp with
      | .ok i => run i (s.withPending rest)
      | .error r => .refused (refusalOf r)
    else .fault .notIdle

/-- Present an input behind those already pending (00_scope R11). -/
def State.present (s : State) (inp : Input) : State := s.withPending (s.pending ++ [inp])

end Sys2Proof.Machine
end

