-- ==== Sys2Proof/Machine/Flags.lean ====
section
/-! DEFINITION. The block's only status flag, `initialized` (10_state R24). -/

namespace Sys2Proof.Machine

/-- `initialized <- 1` (BEGIN when it was 0, BEGINTRANS step 5). -/
def setInitialized (s : State) : State := s.withInitialized true

/-- `initialized <- 0` (END). -/
def clearInitialized (s : State) : State := s.withInitialized false

/-- `HalOpen` and then `initialized <- 1`, as BEGIN and BEGINTRANS step 5 do (42_lifecycle R150, 40_configure
R100). -/
def openAndMark (c : Config.Params) (s : State) : Result State :=
  andThen (halOpen c s) (fun t => .next (setInitialized t))

/-- `HalClose` only where the flag says the session is open (40_configure R100 S3, 42_lifecycle R151). -/
def closeIfInitialized (c : Config.Params) (s : State) : Result State :=
  if s.initialized then halClose c s else .next s

end Sys2Proof.Machine
end

