-- ==== Sys2Proof/Machine/Configure.lean ====
section
/-! DEFINITION. BEGINTRANS, the configuration operation, step by step (40_configure R100). -/

namespace Sys2Proof.Machine

/-- S1: the mode table into the two cached cells. -/
def btModes (mode : BitVec 2) (s : State) : State :=
  (s.withSeq .s1).withMode (modeDec mode).1 (modeDec mode).2

/-- S2: the bit order into its cached cell. -/
def btOrder (order : Byte) (s : State) : State :=
  (s.withSeq .s2).withOrder (ordDec order)

/-- S3: close the session if the adapter believes it open. -/
def btClose (c : Config.Params) (s : State) : Result State :=
  closeIfInitialized c (s.withSeq .s3)

/-- S4: the descriptor starts as the seed and is replaced by the HAL's answer. -/
def btDivider (c : Config.Params) (freq : Freq) (s : State) : State :=
  let seeded := (s.withSeq .s4).withDd (some c.seed)
  let answer := halCalcBitrate c freq c.seed seeded
  answer.2.withDd (some answer.1)

/-- S5: reopen the session and set the flag. -/
def btReopen (c : Config.Params) (s : State) : Result State :=
  openAndMark c (s.withSeq .s5)

/-- S6: the one mandatory read of the command register; the optional reads are left out (log 11). -/
def btReadBase (s : State) : Half × State :=
  regReadCmd (s.withSeq .s6)

/-- The descriptor cell as S7 and S8 read it; it holds the seed from its creation on (10_state R26). -/
def liveDescriptor (c : Config.Params) (s : State) : Descriptor :=
  s.dd.getD c.seed

/-- S7: the new command-register value. -/
def btPack (c : Config.Params) (old : Half) (s : State) : Half × State :=
  (pack old s.clockPhase.bit s.clockPolarity.bit (liveDescriptor c s).ratio s.bitOrder.bit, s.withSeq .s7)

/-- S8, first write: the command register. -/
def btWriteCmd (new : Half) (s : State) : State :=
  regWriteCmd new (s.withSeq .s8)

/-- S8, second write: the bit-rate register. -/
def btWriteBr (c : Config.Params) (s : State) : State :=
  regWriteBr (brVal (liveDescriptor c s)) s

/-- S9, whose reads are optional and left out (log 11), and the return: the descriptor is no longer live. -/
def btReturn (s : State) : State :=
  ((s.withSeq .s9).withDd none).withSeq .idle

/-- S6 to S8's first write, on the reopened session. -/
def btUntilCmdWritten (c : Config.Params) (s : State) : State :=
  let base := btReadBase s
  let packed := btPack c base.1 base.2
  btWriteCmd packed.1 packed.2

/-- S6 to S9 and the return, on the reopened session. -/
def btFinish (c : Config.Params) (s : State) : State :=
  btReturn (btWriteBr c (btUntilCmdWritten c s))

/-- BEGINTRANS on an instance `c` (R100). -/
def beginTransOn (c : Config.Params) (mode : BitVec 2) (order : Byte) (freq : Freq) (s : State) : Result State :=
  if freq = 0 then .refused .freqZero
  else
    andThen (btClose c (btOrder order (btModes mode s))) (fun closed =>
      andThen (btReopen c (btDivider c freq closed)) (fun opened => .next (btFinish c opened)))

/-- BEGINTRANS (R100). -/
def execBeginTrans (mode : BitVec 2) (order : Byte) (freq : Freq) (s : State) : Result State :=
  beginTransOn Config.params mode order freq s

end Sys2Proof.Machine
end

