-- ==== Sys2Proof/Machine/Hooks.lean ====
section
/-! DEFINITION. The four interrupt hooks and the event callback, which exist and do nothing (44_interrupt_hooks). -/

namespace Sys2Proof.Machine

/-- USINGINT (R170): no effect; the id is not read. -/
def execUsingInt (_id : BitVec 32) (s : State) : Result State := runOp (fun s => .next s) s

/-- NOTUSINGINT (R171): no effect. -/
def execNotUsingInt (_id : BitVec 32) (s : State) : Result State := runOp (fun s => .next s) s

/-- ATTACHINT (R172): no effect. -/
def execAttachInt (s : State) : Result State := runOp (fun s => .next s) s

/-- DETACHINT (R173): no effect. -/
def execDetachInt (s : State) : Result State := runOp (fun s => .next s) s

/-- CALLBACK (R174): no effect; the event argument is not read. -/
def execCallback (_evt : EvtWord) (s : State) : Result State := runOp (fun s => .next s) s

end Sys2Proof.Machine
end

