-- ==== Sys2Proof/Machine/Lifecycle.lean ====
section
/-! DEFINITION. BEGIN, END and ENDTRANS (42_lifecycle). -/

namespace Sys2Proof.Machine

/-- BEGIN on an instance `c` (R150): open once. -/
def beginOn (c : Config.Params) (s : State) : Result State :=
  runOp (fun s => if s.initialized then .next s else openAndMark c s) s

/-- END on an instance `c` (R151): close only with END_CLOSES, then clear the flag. -/
def endOn (c : Config.Params) (s : State) : Result State :=
  runOp (fun s =>
    andThen (if c.endCloses then closeIfInitialized c s else .next s) (fun t => .next (clearInitialized t))) s

/-- BEGIN (R150). -/
def execBegin (s : State) : Result State := beginOn Config.params s

/-- END (R151). -/
def execEnd (s : State) : Result State := endOn Config.params s

/-- ENDTRANS (R152): no effect. -/
def execEndTrans (s : State) : Result State := runOp (fun s => .next s) s

end Sys2Proof.Machine
end

