-- ==== Sys2Proof/Machine/Transfer.lean ====
section
/-! DEFINITION. XFER8, XFER16 and XFERBUF (43_transfer). -/

namespace Sys2Proof.Machine

/-- XFER8 on an instance `c` (R160). -/
def xfer8On (c : Config.Params) (data : Byte) (s : State) : Result State :=
  runOp (fun s => andThen (halWriteRead8 c data s) (fun p => .next (p.2.respond (.byte p.1)))) s

/-- XFER16 on an instance `c` (R161). -/
def xfer16On (c : Config.Params) (data : Half) (s : State) : Result State :=
  runOp (fun s => andThen (halWriteRead16 c data s) (fun p => .next (p.2.respond (.half p.1)))) s

/-- XFERBUF on an instance `c` (R162): the wrap check comes before the session check (60_exceptions R185). -/
def xferBufOn (c : Config.Params) (addr : Addr) (count : BitVec 24) (s : State) : Result State :=
  if bufferFits addr count then runOp (halWriteReadBuffer c addr count.toNat) s else .refused .bufferWraps

/-- XFER8 (R160). -/
def execXfer8 (data : Byte) (s : State) : Result State := xfer8On Config.params data s

/-- XFER16 (R161). -/
def execXfer16 (data : Half) (s : State) : Result State := xfer16On Config.params data s

/-- XFERBUF (R162). -/
def execXferBuf (addr : Addr) (count : BitVec 24) (s : State) : Result State :=
  xferBufOn Config.params addr count s

end Sys2Proof.Machine
end

