-- ==== Sys2Proof/Machine/Dispatch.lean ====
section
/-! DEFINITION. One arm per operation (30_encoding R80). -/

namespace Sys2Proof.Machine

def exec (i : Instr) (s : State) : Host.Outcome State Fault Refusal :=
  match i with
  | .opBegin => Sys2Proof.Machine.execBegin s
  | .opEnd => Sys2Proof.Machine.execEnd s
  | .beginTrans mode order freq => Sys2Proof.Machine.execBeginTrans mode order freq s
  | .endTrans => Sys2Proof.Machine.execEndTrans s
  | .xfer8 data => Sys2Proof.Machine.execXfer8 data s
  | .xfer16 data => Sys2Proof.Machine.execXfer16 data s
  | .xferBuf addr count => Sys2Proof.Machine.execXferBuf addr count s
  | .usingInt id => Sys2Proof.Machine.execUsingInt id s
  | .notUsingInt id => Sys2Proof.Machine.execNotUsingInt id s
  | .attachInt => Sys2Proof.Machine.execAttachInt s
  | .detachInt => Sys2Proof.Machine.execDetachInt s
  | .callback evt => Sys2Proof.Machine.execCallback evt s

end Sys2Proof.Machine
end

