-- ==== Sys2Proof/Machine/Step.lean ====
section
/-! DEFINITION. One step of the block: take the next input and run it whole (00_scope R12). -/

namespace Sys2Proof.Machine

/-- One step (00_scope R12, R17): `acceptNext` takes the input, `exec` is its meaning. -/
def step (s : State) : Host.Outcome State Fault Refusal :=
  acceptNext exec s

/-- `s` with an opcode-table word as the next input (log 1, log 19). -/
def State.withFetchWord (s : State) (nbits w : Nat) : State :=
  s.withPending (inputOfTableWord nbits w :: s.pending)

end Sys2Proof.Machine
end

