-- ==== Sys2Proof/Machine/Calls.lean ====
section
/-! DEFINITION. The caller-facing call surface (30_encoding R84): what a caller writes, and the request it stands
for. Here the mode is a natural number, so the `BadMode` refusal of R101 and R187 has its place. -/

namespace Sys2Proof.Machine

/-- The transfer settings, "immutable per call" (00_scope R19, 40_configure R100). -/
structure TransferSettings where
  clockFrequency : Freq
  dataMode : Nat
  bitOrder : Byte
  deriving DecidableEq, Repr

/-- The calls of R84; `applyTransactionSettings` is the second name of `beginTransaction` (90_conflicts C5). -/
inductive Call where
  | callBegin
  | callEnd
  | beginTransaction (settings : TransferSettings)
  | applyTransactionSettings (settings : TransferSettings)
  | endTransaction
  | transferByte (data : Byte)
  | transferHalfword (data : Half)
  | transferBuffer (addr : Addr) (count : BitVec 24)
  | usingInterrupt (id : BitVec 32)
  | notUsingInterrupt (id : BitVec 32)
  | attachInterrupt
  | detachInterrupt
  deriving DecidableEq, Repr

/-- The settings as an instruction: a mode above 3 is refused and no fifth row is invented (R82, R101). DESIGN CHOICE
(log 17): the refusal stands here, before a request word exists, so a call with a mode above 3 and a frequency of 0
is BadMode and not FreqZero; R82 gives no order for a call that breaks both rows. -/
def settingsInstr (t : TransferSettings) : Except Refusal Instr :=
  if t.dataMode < 4 then .ok (.beginTrans (BitVec.ofNat 2 t.dataMode) t.bitOrder t.clockFrequency)
  else .error .badMode

/-- The request a call stands for (R84). -/
def callInstr : Call → Except Refusal Instr
  | .callBegin => .ok .opBegin
  | .callEnd => .ok .opEnd
  | .beginTransaction t => settingsInstr t
  | .applyTransactionSettings t => settingsInstr t
  | .endTransaction => .ok .endTrans
  | .transferByte d => .ok (.xfer8 d)
  | .transferHalfword d => .ok (.xfer16 d)
  | .transferBuffer a n => .ok (.xferBuf a n)
  | .usingInterrupt id => .ok (.usingInt id)
  | .notUsingInterrupt id => .ok (.notUsingInt id)
  | .attachInterrupt => .ok .attachInt
  | .detachInterrupt => .ok .detachInt

/-- A caller makes a call: its request word is presented behind those already pending. -/
def issueCall (call : Call) (s : State) : Except Refusal State :=
  match callInstr call with
  | .ok i => .ok (s.present (encode i))
  | .error r => .error r

end Sys2Proof.Machine
end

