-- ==== Sys2Proof/Machine/Divider.lean ====
section
/-! DEFINITION. The clock-divider computation (41_divider): CALCDIV over the open parameter `CalcDiv`, the check at
configuration, and the spec's own reference instance for tests. -/

namespace Sys2Proof.Machine

/-- CALCDIV: the computed descriptor, or the seed where the computation fails (R130, R133; that a failed call leaves
the seed is the spec's own reading, D9, log 23). -/
def calcDiv (c : Config.Params) (freq : Freq) : Descriptor :=
  match c.calcDiv freq with
  | some d => d
  | none => c.seed

/-- A descriptor as an instance proposes it, before the check of R131: the ratio may be any number. -/
structure RawDescriptor where
  ratio : Nat
  base : BitVec 32
  deriving DecidableEq, Repr

/-- R131: the ratio fits the ten bits of its field. -/
def RawDescriptor.fits (d : RawDescriptor) : Bool := d.ratio < 2 ^ 10

/-- The descriptor that a fitting proposal stands for. -/
def RawDescriptor.narrow (d : RawDescriptor) : Descriptor := ⟨BitVec.ofNat 10 d.ratio, d.base⟩

/-- A well-formed descriptor as a proposal. -/
def rawOf (d : Descriptor) : RawDescriptor := ⟨d.ratio.toNat, d.base⟩

/-- The check of one proposal (R131): a ratio that does not fit ten bits is refused. -/
def configureDescriptor (ratio : Nat) (base : BitVec 32) : Except Refusal Descriptor :=
  if RawDescriptor.fits ⟨ratio, base⟩ then .ok (RawDescriptor.narrow ⟨ratio, base⟩) else .error .badDescriptor

/-- Every answer of a proposed CalcDiv fits, at each of the 2^32 frequencies: CalcDiv is total (00_scope R9), so
frequency 0 counts too (log 17). Irreducible, so that no proof enumerates the range: `answersFit_iff` says what it is. -/
@[irreducible] def answersFit (answers : Freq → Option RawDescriptor) : Bool :=
  (List.range (2 ^ 32)).all (fun n => (answers (BitVec.ofNat 32 n)).all RawDescriptor.fits)

/-- The check of a proposed CalcDiv (R131). -/
def configureCalcDiv (answers : Freq → Option RawDescriptor) : Except Refusal (Freq → Option Descriptor) :=
  if answersFit answers then .ok (fun freq => (answers freq).map RawDescriptor.narrow) else .error .badDescriptor

/-- Configuration time (R131): an instance with a proposed SEED and CalcDiv, and the other parameters of `rest`. It is
refused before anything runs where SEED or an answer of CalcDiv has a ratio of 1024 or more. -/
def configureInstance (seed : RawDescriptor) (answers : Freq → Option RawDescriptor) (rest : Config.Params) :
    Except Refusal Config.Params :=
  match configureDescriptor seed.ratio seed.base, configureCalcDiv answers with
  | .ok d, .ok f => .ok { rest with seed := d, calcDiv := f }
  | .error r, _ => .error r
  | .ok _, .error r => .error r

/-- `ceil_div(a, b)` for `b > 0` (00_scope R14). -/
def ceilDivNat (a b : Nat) : Nat := (a + b - 1) / b

/-- The reference instance's total divisor, `2 * (base[7:0] + 1) * 2^ratio` (R135). -/
def refDivisor (d : Descriptor) : Nat :=
  2 * ((d.base.setWidth 8).toNat + 1) * 2 ^ d.ratio.toNat

/-- `RateRef` (R135): only the ratios 0 to 3 are given a rate. -/
def rateRef (fRef : Nat) (d : Descriptor) : Option Rat :=
  if d.ratio.toNat ≤ 3 then some ((fRef : Rat) / (refDivisor d : Rat)) else none

/-- The reference algorithm's try of one ratio (R136). -/
def tryRatio (need r : Nat) : Option Descriptor :=
  if ceilDivNat need (2 ^ (r + 1)) ≤ 256 then
    some ⟨BitVec.ofNat 10 r, BitVec.ofNat 32 (ceilDivNat need (2 ^ (r + 1)) - 1)⟩
  else none

/-- `CalcDivRef` (R136), for `freq > 0`: the least ratio of 0 to 3 that serves. A frequency of 0 is refused before
the computation is reached (R130). -/
def calcDivRef (fRef : Nat) (freq : Freq) : Option Descriptor :=
  [0, 1, 2, 3].findSome? (tryRatio (ceilDivNat fRef freq.toNat))

/-- An instance whose `CalcDiv` is the reference algorithm with reference clock `fRef` (R135, R136). -/
def withReference (fRef : Nat) (c : Config.Params) : Config.Params :=
  { c with calcDiv := calcDivRef fRef }

end Sys2Proof.Machine
end

