-- ==== Sys2Proof/Machine/Instance.lean ====
section
/-! DEFINITION. The same machine on any instance: claims about the open parameters are stated for every value of
them (00_scope R9). `exec` and `step` are this at `Config.params` (Laws/Instance.lean proves it). -/

namespace Sys2Proof.Machine

/-- The meaning of an instruction on an instance `c`. -/
def execOn (c : Config.Params) (i : Instr) (s : State) : Result State :=
  match i with
  | .opBegin => beginOn c s
  | .opEnd => endOn c s
  | .beginTrans mode order freq => beginTransOn c mode order freq s
  | .endTrans => execEndTrans s
  | .xfer8 data => xfer8On c data s
  | .xfer16 data => xfer16On c data s
  | .xferBuf addr count => xferBufOn c addr count s
  | .usingInt id => execUsingInt id s
  | .notUsingInt id => execNotUsingInt id s
  | .attachInt => execAttachInt s
  | .detachInt => execDetachInt s
  | .callback evt => execCallback evt s

/-- One step on an instance `c`. -/
def stepOn (c : Config.Params) (s : State) : Result State := acceptNext (execOn c) s

/-- Run instructions one after another on an instance `c`, stopping at the first stop (70 R204). -/
def runOn (c : Config.Params) : List Instr → State → Result State
  | [], s => .next s
  | i :: is, s => andThen (execOn c i s) (runOn c is)

end Sys2Proof.Machine
end

