-- ==== Sys2Proof/Safety.lean ====
section
/-! DEFINITION. What counts as a sound state and a safe run, in the terms claims use: the invariants, the states a
construction may leave (10_state R40), the reachable states (70 R204), and the views of the history. -/

namespace Sys2Proof.Machine

/-- The flag implies the session (10_state R39). -/
def State.SessionSound (s : State) : Prop := s.initialized = true → s.halOpen = true

/-- Between operations the sequencer is IDLE and no descriptor is live (10_state R26, R28). -/
def State.Quiet (s : State) : Prop := s.seq = .idle ∧ s.dd = none

/-- The invariant of every step: session, sequencer and canonical memory. -/
def State.Inv (s : State) : Prop := s.SessionSound ∧ s.Quiet ∧ s.mem.wf = true

/-- A state as construction leaves it: the cells R40 fixes have their values; `CMD[0]`, `BR`, the other entries,
the caller's memory and the presented inputs are anything. -/
def State.Constructed (s : State) : Prop :=
  s.clockPhase = .oddEdge ∧ s.clockPolarity = .low ∧ s.bitOrder = .msbFirst ∧ s.initialized = false ∧
    s.dd = none ∧ s.seq = .idle ∧ s.halOpen = false ∧ s.hist = [] ∧ s.responses = [] ∧ s.mem.wf = true

/-- The states that runs from a construction reach without a stop, for any inputs (70 R204). -/
inductive Reachable (c : Config.Params) : State → Prop where
  | construct (s : State) (h : s.Constructed) : Reachable c s
  | step (s t : State) (hs : Reachable c s) (h : stepOn c s = .next t) : Reachable c t

/-- The cached settings: phase, polarity, bit order. -/
def State.cached (s : State) : ClockPhase × ClockPolarity × BitOrder :=
  (s.clockPhase, s.clockPolarity, s.bitOrder)

/-- How many times the session was opened, in the history: the source's "mock HAL call counter" (42_lifecycle
R150). -/
def State.opens (s : State) : Nat := s.hist.count .halOpen

/-- How many times the session was closed, in the history. -/
def State.closes (s : State) : Nat := s.hist.count .halClose

/-- The events of a buffer exchange (20_memory R65) on the bytes `tx` for the received `rx`, from address `a` on. -/
def bufferEvents : List Byte → List Byte → Addr → List Event
  | t :: ts, r :: rs, a => .memRead a t :: .memWrite a r :: bufferEvents ts rs (a + 1#32)
  | _, _, _ => []

/-- The bytes of a buffer of `count` units at `a` (20_memory R52: unit `i` is the byte at `a + i`). -/
def bytesAt (m : Memory) (a : Addr) (count : Nat) : List Byte :=
  (List.range count).map (fun i => m.read (a.toNat + i))

/-- An address outside the buffer of `count` units at `a`. -/
def OutsideBuffer (a : Addr) (count : Nat) (b : Nat) : Prop := b < a.toNat ∨ a.toNat + count ≤ b

/-- The buffer an instruction stores to: XFERBUF's, and of every other instruction none (20_memory R50). -/
def storedBuffer : Instr → Option (Addr × Nat)
  | .xferBuf addr count => some (addr, count.toNat)
  | .opBegin => none
  | .opEnd => none
  | .beginTrans _ _ _ => none
  | .endTrans => none
  | .xfer8 _ => none
  | .xfer16 _ => none
  | .usingInt _ => none
  | .notUsingInt _ => none
  | .attachInt => none
  | .detachInt => none
  | .callback _ => none

/-- How many responses an instruction returns (30_encoding R79). -/
def responseCount : Instr → Nat
  | .xfer8 _ => 1
  | .xfer16 _ => 1
  | .opBegin => 0
  | .opEnd => 0
  | .beginTrans _ _ _ => 0
  | .endTrans => 0
  | .xferBuf _ _ => 0
  | .usingInt _ => 0
  | .notUsingInt _ => 0
  | .attachInt => 0
  | .detachInt => 0
  | .callback _ => 0

/-- The operations that call the session functions of the HAL or write the registers: BEGIN, END, BEGINTRANS. -/
def drivesSession : Instr → Bool
  | .opBegin => true
  | .opEnd => true
  | .beginTrans _ _ _ => true
  | .endTrans => false
  | .xfer8 _ => false
  | .xfer16 _ => false
  | .xferBuf _ _ => false
  | .usingInt _ => false
  | .notUsingInt _ => false
  | .attachInt => false
  | .detachInt => false
  | .callback _ => false

/-- The one operation that writes the cached settings (10_state R21 to R23). -/
def writesSettings : Instr → Bool
  | .beginTrans _ _ _ => true
  | .opBegin => false
  | .opEnd => false
  | .endTrans => false
  | .xfer8 _ => false
  | .xfer16 _ => false
  | .xferBuf _ _ => false
  | .usingInt _ => false
  | .notUsingInt _ => false
  | .attachInt => false
  | .detachInt => false
  | .callback _ => false

/-- A configuration request as an instruction. -/
def settingsRequest (r : BitVec 2 × Byte × Freq) : Instr := .beginTrans r.1 r.2.1 r.2.2

/-- The state BEGINTRANS leaves on an instance `c` (40_configure R104, R108, 20_memory R60): the cached request, the
open session, the packed registers, and the events in step order. -/
def afterBeginTrans (c : Config.Params) (mode : BitVec 2) (order : Byte) (freq : Freq) (d : Descriptor) (s : State) :
    State :=
  { s with
    clockPolarity := (modeDec mode).1
    clockPhase := (modeDec mode).2
    bitOrder := ordDec order
    initialized := true
    halOpen := true
    dd := none
    seq := .idle
    cmd0 := pack c.cmdOpenDefault (modeDec mode).2.bit (modeDec mode).1.bit d.ratio (ordDec order).bit
    br := brVal d
    draws := s.draws + (if s.initialized then 1 else 0)
    hist := s.hist ++ (if s.initialized then [.halClose] else []) ++
      [.calcBitrate freq, .halOpen, .regReadCmd c.cmdOpenDefault,
        .regWriteCmd (pack c.cmdOpenDefault (modeDec mode).2.bit (modeDec mode).1.bit d.ratio (ordDec order).bit),
        .regWriteBr (brVal d)] }

end Sys2Proof.Machine
end

