-- ==== Sys2Proof/Certificates/Slice0/Obligations.lean ====
section
/-! DEFINITION. The statements for the provers. `execOn c` is the machine on any instance `c` of the open parameters
(00_scope R9), and `exec` is `execOn Config.params`. -/

open Sys2Proof Sys2Proof.Machine

/-! ### Encodings (30_encoding) -/

/-- R77, R78, R80, R81, R83: an encoded instruction decodes to itself, with every operand at every value, and
a well-formed one passes the value checks. -/
def Obligations.DecodeOfEncode : Prop :=
  ∀ i : Instr, inputFields (encode i) = .ok i ∧ (i.wf = true → decodeInput (encode i) = .ok i)

/-- R83: decoding then encoding a legal word gives the same word, and what is decoded is well formed. -/
def Obligations.EncodeOfDecode : Prop :=
  ∀ (inp : Input) (i : Instr), decodeInput inp = .ok i → encode i = inp ∧ i.wf = true

/-- R83, R82: the decoder's verdict on every 64-bit word. A reserved `op` is UnknownOp; a row's `op` with a word the
row's mask does not match is ReservedBits; a word that a row selects is the encoding of one instruction of that row,
which is the answer when it is well formed and FreqZero or BufferWraps when it is not. -/
def Obligations.DecoderVerdicts : Prop :=
  ∀ w : ReqWord,
    ((reqOp w = 0x0#4 ∨ 0xC#4 ≤ reqOp w) → decodeRequest w = .error .unknownOp) ∧
    (∀ r ∈ opTable, reqOp w = r.pattern.setWidth 4 → r.selects w = false → decodeRequest w = .error .reservedBits) ∧
    (∀ r ∈ opTable, r.selects w = true →
      ∃ i : Instr, i.mnemonic = r.mnemonic ∧ encode i = .request w ∧
        (i.wf = true → decodeRequest w = .ok i) ∧
        (i.wf = false → (r = rowBeginTrans ∧ decodeRequest w = .error .freqZero) ∨
          (r = rowXferBuf ∧ decodeRequest w = .error .bufferWraps)))

/-- R80: no two rows of the operation map can match the same word. -/
def Obligations.RowsDisjoint : Prop :=
  ∀ (w : ReqWord) (r r' : OpRow), r ∈ opTable → r' ∈ opTable → r.selects w = true → r'.selects w = true → r = r'

/-- Words of 95_test_vectors T69, T71, T72, T74 to T77, T62, T63, T81 to T87, decoded as they say. -/
def Obligations.SpecWordsDecode : Prop :=
  decodeRequest 0x000F424000000123#64 = .ok (.beginTrans 2#2 0x01#8 1000000#32) ∧
  decodeRequest 0x00002DC700003733#64 = .ok (.beginTrans 3#2 0x37#8 11719#32) ∧
  decodeRequest 0xFFFFFFFF00000013#64 = .ok (.beginTrans 1#2 0x00#8 4294967295#32) ∧
  decodeRequest 0x0000000000A50005#64 = .ok (.xfer8 0xA5#8) ∧
  decodeRequest 0x0000000012340006#64 = .ok (.xfer16 0x1234#16) ∧
  decodeRequest 0x2000000000000307#64 = .ok (.xferBuf 0x20000000#32 3#24) ∧
  decodeRequest 0x0000000700000008#64 = .ok (.usingInt 7#32) ∧
  decodeRequest 0xFFFFFFFE00000207#64 = .ok (.xferBuf 0xFFFFFFFE#32 2#24) ∧
  decodeRequest 0xFFFFFFFF00000207#64 = .error .bufferWraps ∧
  decodeRequest 0x0000000000000000#64 = .error .unknownOp ∧
  decodeRequest 0x000000000000000C#64 = .error .unknownOp ∧
  decodeRequest 0x0000000000000011#64 = .error .reservedBits ∧
  decodeRequest 0x000F424000000163#64 = .error .reservedBits ∧
  decodeRequest 0x000F424000010123#64 = .error .reservedBits ∧
  decodeRequest 0x0000000001A50005#64 = .error .reservedBits ∧
  decodeRequest 0x0000000000000103#64 = .error .freqZero

/-- R101, R82, R84: on the call surface a `dataMode` above 3 is refused with BadMode, one of 0 to 3 is BEGINTRANS with
that mode, and the second name of the call stands for the same request. That BadMode is raised on the call surface,
before any look at the frequency, is this model's choice (log 17). -/
def Obligations.CallSettingsChecked : Prop :=
  ∀ t : TransferSettings,
    (4 ≤ t.dataMode → callInstr (.beginTransaction t) = .error .badMode) ∧
    (∀ mode : BitVec 2, t.dataMode = mode.toNat →
      callInstr (.beginTransaction t) = .ok (.beginTrans mode t.bitOrder t.clockFrequency)) ∧
    callInstr (.applyTransactionSettings t) = callInstr (.beginTransaction t)

/-- R131: an instance's descriptor is accepted with its values exactly when its ratio is below 1024, and refused with
BadDescriptor otherwise. -/
def Obligations.ConfiguredRatioChecked : Prop :=
  ∀ (ratio : Nat) (base : BitVec 32),
    (ratio < 1024 → ∃ d : Descriptor, configureDescriptor ratio base = .ok d ∧ d.ratio.toNat = ratio ∧ d.base = base) ∧
    (1024 ≤ ratio → configureDescriptor ratio base = .error .badDescriptor)

/-! ### The step -/

/-- R12, R28, R83: a step takes the next input, and where it decodes to `i` the step is `exec i` on the state without
that input. The list of inputs is the model's own (log 1). -/
def Obligations.StepRunsDecoded : Prop :=
  ∀ (s : State) (inp : Input) (rest : List Input) (i : Instr),
    s.pending = inp :: rest → s.seq = .idle → decodeInput inp = .ok i → step s = exec i (s.withPending rest)

/-- R82, R187: a request the decoder turns away stops the step with the refusal of the same name. The list of inputs is
the model's own (log 1). -/
def Obligations.StepRefusesRejected : Prop :=
  ∀ (s : State) (inp : Input) (rest : List Input) (r : Reject),
    s.pending = inp :: rest → s.seq = .idle → decodeInput inp = .error r →
    step s = .refused (match r with
      | .unknownOp => .unknownOp
      | .reservedBits => .reservedBits
      | .freqZero => .freqZero
      | .bufferWraps => .bufferWraps)

/-- R200: with nothing presented the block performs no action of its own. That the step then answers the same state is
this model's choice (log 1). -/
def Obligations.StepWaitsWithoutInput : Prop :=
  ∀ s : State, s.pending = [] → step s = .next s

/-- The host's placing of an opcode-table word makes the very next step run it (log 1, log 19). -/
def Obligations.FetchWordRuns : Prop :=
  ∀ (s : State) (nbits w : Nat) (i : Instr),
    s.seq = .idle → decodeTableWord nbits w = some i → i.wf = true → step (s.withFetchWord nbits w) = exec i s

/-! ### Reset and invariants -/

/-- R40, R200, R201: what the spec gives of the state after construction; no event is recorded. That the flag and the
session are 0 is what the spec derives and decides (10_state R24, 92_eei_decisions D6; log 18). -/
def Obligations.ResetCells : Prop :=
  State.reset.clockPhase = .oddEdge ∧ State.reset.clockPolarity = .low ∧ State.reset.bitOrder = .msbFirst ∧
  State.reset.initialized = false ∧ State.reset.seq = .idle ∧ State.reset.dd = none ∧ State.reset.halOpen = false ∧
  State.reset.hist = []

/-- The invariant holds at reset (R39, R28, R26; the canonical memory is the model's own, log 7). -/
def Obligations.ResetMeetsInv : Prop := State.reset.Inv

/-- Every step on every instance keeps: the flag implies the session (R39), the sequencer is idle and no descriptor is
live between operations (R28, R26), and caller memory is in canonical form, which is the model's own form and no rule
of the spec (log 7). -/
def Obligations.StepKeepsInv : Prop :=
  (∀ (c : Config.Params) (s t : State), s.Inv → stepOn c s = .next t → t.Inv) ∧
  (∀ s t : State, s.Inv → step s = .next t → t.Inv)

/-- R39: in every reachable state the flag implies the session, the pair (0,1) needs END_CLOSES false, each of the
pairs (0,0), (1,1) is reached, and with END_CLOSES false (0,1) is what an END leaves and is reached. -/
def Obligations.ReachableSessionPairs : Prop :=
  (∀ (c : Config.Params) (s : State), Reachable c s → s.initialized = true → s.halOpen = true) ∧
  (∀ (c : Config.Params) (s : State), Reachable c s → c.endCloses = true → s.initialized = s.halOpen) ∧
  (∀ c : Config.Params, ∃ s, Reachable c s ∧ s.initialized = false ∧ s.halOpen = false) ∧
  (∀ c : Config.Params, ∃ s, Reachable c s ∧ s.initialized = true ∧ s.halOpen = true) ∧
  (∀ c : Config.Params, c.endCloses = false → ∃ s, Reachable c s ∧ s.initialized = false ∧ s.halOpen = true) ∧
  (∀ (c : Config.Params) (s : State), Reachable c s → c.endCloses = false → s.initialized = true →
    ∃ t, execOn c .opEnd s = .next t ∧ t.initialized = false ∧ t.halOpen = true)

/-- R186: the faults a reachable state can meet are the closed list's two; the model's two others (log 13) are
not met. -/
def Obligations.ReachableFaultList : Prop :=
  ∀ (c : Config.Params) (s : State) (r : Fault), Reachable c s → stepOn c s = .fault r →
    r = .openWhileOpen ∨ r = .transferNotOpen

/-- R187: the refusals a step can answer, in any state. -/
def Obligations.StepRefusalList : Prop :=
  ∀ (c : Config.Params) (s : State) (r : Refusal), stepOn c s = .refused r →
    r = .unknownOp ∨ r = .reservedBits ∨ r = .freqZero ∨ r = .bufferWraps

/-- R186, R207: OpenWhileOpen is raised exactly by BEGIN or BEGINTRANS (with a positive frequency) where the flag is
clear and the session open. -/
def Obligations.OpenWhileOpenExactly : Prop :=
  ∀ (c : Config.Params) (i : Instr) (s : State),
    execOn c i s = .fault .openWhileOpen ↔
      (i = .opBegin ∨ ∃ mode order freq, freq ≠ 0 ∧ i = .beginTrans mode order freq) ∧
        s.initialized = false ∧ s.halOpen = true

/-- R207: with END_CLOSES no reachable state meets an open of an open session. -/
def Obligations.EndClosesNeverDoubleOpens : Prop :=
  ∀ (c : Config.Params) (s : State), c.endCloses = true → Reachable c s → stepOn c s ≠ .fault .openWhileOpen

/-! ### Lifecycle (42_lifecycle) -/

/-- R150: BEGIN on a closed session opens it, loads the open defaults and sets the flag; with the flag set it changes
nothing; called twice it opens once; on an open session with the flag clear it faults. -/
def Obligations.BeginOpensOnce : Prop :=
  encode .opBegin = .request 0x0000000000000001#64 ∧
  ∀ s : State,
    (s.initialized = false → s.halOpen = false →
      exec .opBegin s = .next { s with
        initialized := true, halOpen := true, cmd0 := Config.cmdOpenDefault, br := Config.brOpenDefault,
        hist := s.hist ++ [.halOpen], seq := .idle }) ∧
    (s.initialized = true → exec .opBegin s = .next { s with seq := .idle }) ∧
    (s.initialized = true → s.seq = .idle → exec .opBegin s = .next s) ∧
    (s.initialized = false → s.halOpen = false →
      ∃ t, exec .opBegin s = .next t ∧ exec .opBegin t = .next t ∧ t.opens = s.opens + 1) ∧
    (s.initialized = false → s.halOpen = true → exec .opBegin s = .fault .openWhileOpen)

/-- R151, END_CLOSES false (R10, this machine): END clears the flag, changes nothing else and records no event. -/
def Obligations.EndClearsFlagOnly : Prop :=
  encode .opEnd = .request 0x0000000000000002#64 ∧
  ∀ s : State, exec .opEnd s = .next { s with initialized := false, seq := .idle } ∧
    (s.initialized = false → s.seq = .idle → exec .opEnd s = .next s)

/-- R151, R10 on every instance: END closes the session exactly where END_CLOSES is on and the flag is set; the
registers then hold the free values of R33 (log 4). The premise that the flag implies the session is R39's invariant. -/
def Obligations.EndClosesByOption : Prop :=
  ∀ (c : Config.Params) (s : State), s.SessionSound →
    (c.endCloses = false → execOn c .opEnd s = .next { s with initialized := false, seq := .idle }) ∧
    (c.endCloses = true → s.initialized = false → execOn c .opEnd s = .next { s with seq := .idle }) ∧
    (c.endCloses = true → s.initialized = true →
      execOn c .opEnd s = .next { s with
        initialized := false, halOpen := false, cmd0 := c.cmdAfterClose s.draws, br := c.brAfterClose s.draws,
        draws := s.draws + 1, hist := s.hist ++ [.halClose], seq := .idle })

/-- R152: ENDTRANS has no effect, in every state between operations. -/
def Obligations.EndTransNoEffect : Prop :=
  encode .endTrans = .request 0x0000000000000004#64 ∧
  ∀ s : State, exec .endTrans s = .next { s with seq := .idle } ∧ (s.seq = .idle → exec .endTrans s = .next s)

/-! ### The micro-operations (40_configure) -/

/-- R101, R73, R74: the mode table; with the value encodings, polarity is `mode[1]` and phase `mode[0]`. -/
def Obligations.ModeTable : Prop :=
  modeDec 0#2 = (.low, .oddEdge) ∧ modeDec 1#2 = (.low, .evenEdge) ∧
  modeDec 2#2 = (.high, .oddEdge) ∧ modeDec 3#2 = (.high, .evenEdge) ∧
  ∀ mode : BitVec 2, (modeDec mode).1.bit = mode.extractLsb' 1 1 ∧ (modeDec mode).2.bit = mode.extractLsb' 0 1

/-- R103, R75: exactly the code 0x00 maps to LSB_FIRST; each of the 255 others maps to MSB_FIRST. -/
def Obligations.OrderMapping : Prop :=
  ∀ order : Byte,
    ordDec order = (if order = 0x00#8 then .lsbFirst else .msbFirst) ∧
    (ordDec order).bit = (if order = 0x00#8 then 1#1 else 0#1)

/-- R102: PACK bit by bit: each of the four fields is the old field OR its operand, and bits 15:13 are the old ones. -/
def Obligations.PackBitByBit : Prop :=
  ∀ (old : Half) (pha pol : BitVec 1) (ratio : BitVec 10) (ord : BitVec 1),
    cmdPha (pack old pha pol ratio ord) = cmdPha old ||| pha ∧
    cmdPol (pack old pha pol ratio ord) = cmdPol old ||| pol ∧
    cmdDivr (pack old pha pol ratio ord) = cmdDivr old ||| ratio ∧
    cmdOrd (pack old pha pol ratio ord) = cmdOrd old ||| ord ∧
    cmdKept (pack old pha pol ratio ord) = cmdKept old

/-- R106: the laws of PACK: monotone, idempotent, accumulating, kept bits, field independence, and the four OR terms
in any order. -/
def Obligations.PackLaws : Prop :=
  ∀ (old old' : Half) (pha pol pha' pol' : BitVec 1) (ratio ratio' : BitVec 10) (ord ord' : BitVec 1),
    pack old pha pol ratio ord &&& old = old ∧
    pack (pack old pha pol ratio ord) pha pol ratio ord = pack old pha pol ratio ord ∧
    pack (pack old pha pol ratio ord) pha' pol' ratio' ord' =
      pack old (pha ||| pha') (pol ||| pol') (ratio ||| ratio') (ord ||| ord') ∧
    (pack old pha pol ratio ord).extractLsb' 13 3 = old.extractLsb' 13 3 ∧
    (cmdPha old = cmdPha old' → cmdPha (pack old pha pol ratio ord) = cmdPha (pack old' pha pol' ratio' ord')) ∧
    (cmdPol old = cmdPol old' → cmdPol (pack old pha pol ratio ord) = cmdPol (pack old' pha' pol ratio' ord')) ∧
    (cmdDivr old = cmdDivr old' → cmdDivr (pack old pha pol ratio ord) = cmdDivr (pack old' pha' pol' ratio ord')) ∧
    (cmdOrd old = cmdOrd old' → cmdOrd (pack old pha pol ratio ord) = cmdOrd (pack old' pha' pol' ratio' ord)) ∧
    ∀ order : List (Half → Half),
      order.Perm [fun v => pack v pha 0 0 0, fun v => pack v 0 pol 0 0, fun v => pack v 0 0 ratio 0,
        fun v => pack v 0 0 0 ord] →
      order.foldl (fun v f => f v) old = pack old pha pol ratio ord

/-- R105, R72: BRVAL is the base modulo 256: bits 7:0 of it, the rest dropped. -/
def Obligations.BitRateValue : Prop :=
  ∀ dd : Descriptor, brVal dd = dd.base.extractLsb' 0 8 ∧ (brVal dd).toNat = dd.base.toNat % 256

/-- R54, R55: a register read after a write returns the value written, a read changes the history alone, and a write
the register and the history alone. That this holds on a closed session too is the model's choice (log 24): R37 leaves
it undefined, and it never arises. -/
def Obligations.RegisterReadAfterWrite : Prop :=
  ∀ s : State,
    (∀ v : Half, (regReadCmd (regWriteCmd v s)).1 = v ∧
      regWriteCmd v s = { s with cmd0 := v, hist := s.hist ++ [.regWriteCmd v] }) ∧
    (∀ v : Byte, (regReadBr (regWriteBr v s)).1 = v ∧
      regWriteBr v s = { s with br := v, hist := s.hist ++ [.regWriteBr v] }) ∧
    regReadCmd s = (s.cmd0, { s with hist := s.hist ++ [.regReadCmd s.cmd0] }) ∧
    regReadBr s = (s.br, { s with hist := s.hist ++ [.regReadBr s.br] })

/-! ### BEGINTRANS (40_configure) -/

/-- R100, R60, R104, R108: BEGINTRANS with a positive frequency completes wherever the flag and the session agree, on
every instance, in exactly the state `afterBeginTrans`: cached request, open session, packed registers, and the events
in step order (the optional reads are left out, log 11). That the seed stands where the computation fails is the
spec's own reading (92_eei_decisions D9; log 23); that HAL calls succeed and return is a premise (logs 10 and 16). -/
def Obligations.BeginTransCompletes : Prop :=
  (∀ (c : Config.Params) (mode : BitVec 2) (order : Byte) (freq : Freq) (s : State),
    freq ≠ 0 → s.initialized = s.halOpen →
    execOn c (.beginTrans mode order freq) s = .next (afterBeginTrans c mode order freq (calcDiv c freq) s)) ∧
  (∀ (mode : BitVec 2) (order : Byte) (freq : Freq) (s : State),
    freq ≠ 0 → s.initialized = s.halOpen →
    exec (.beginTrans mode order freq) s =
      .next (afterBeginTrans Config.params mode order freq (calcDiv Config.params freq) s))

/-- R100, R82, R185, R186, R31: where BEGINTRANS stops: on frequency 0 before any step, whatever the session; on an
open session with the flag clear; and, in a state no run reaches, on a closed session with the flag set (log 13). -/
def Obligations.BeginTransStops : Prop :=
  ∀ (mode : BitVec 2) (order : Byte) (freq : Freq) (s : State),
    (freq = 0 → exec (.beginTrans mode order freq) s = .refused .freqZero) ∧
    (freq ≠ 0 → s.initialized = false → s.halOpen = true →
      exec (.beginTrans mode order freq) s = .fault .openWhileOpen) ∧
    (freq ≠ 0 → s.initialized = true → s.halOpen = false →
      exec (.beginTrans mode order freq) s = .fault .closeWhileClosed)

/-- R104: the register values after a BEGINTRANS that did not fault, exactly, for every value of the parameters; and
under OpenDefaultClean every field is the request's and the cached cells equal the register bits. That the seed stands
where the computation fails is the spec's own reading (92_eei_decisions D9, ASSUMED; log 23). -/
def Obligations.RegisterValuesExact : Prop :=
  ∀ (c : Config.Params) (mode : BitVec 2) (order : Byte) (freq : Freq) (s t : State),
    execOn c (.beginTrans mode order freq) s = .next t →
    ∃ d : Descriptor, d = (c.calcDiv freq).getD c.seed ∧
      cmdPha t.cmd0 = cmdPha c.cmdOpenDefault ||| (modeDec mode).2.bit ∧
      cmdPol t.cmd0 = cmdPol c.cmdOpenDefault ||| (modeDec mode).1.bit ∧
      cmdDivr t.cmd0 = cmdDivr c.cmdOpenDefault ||| d.ratio ∧
      cmdOrd t.cmd0 = cmdOrd c.cmdOpenDefault ||| (ordDec order).bit ∧
      cmdKept t.cmd0 = cmdKept c.cmdOpenDefault ∧
      t.br = d.base.extractLsb' 0 8 ∧
      (c.OpenDefaultClean →
        cmdPha t.cmd0 = (modeDec mode).2.bit ∧ cmdPol t.cmd0 = (modeDec mode).1.bit ∧ cmdDivr t.cmd0 = d.ratio ∧
        cmdOrd t.cmd0 = (ordDec order).bit ∧
        t.clockPhase.bit = cmdPha t.cmd0 ∧ t.clockPolarity.bit = cmdPol t.cmd0 ∧ t.bitOrder.bit = cmdOrd t.cmd0)

/-- R36, R101, R103 (the source's first two testable properties): under OpenDefaultModeClean the mode bits are the
mode number and bit 12 is set for LSB-first alone, independent of the state before. -/
def Obligations.ModeAndOrderApplied : Prop :=
  ∀ (c : Config.Params) (mode : BitVec 2) (order : Byte) (freq : Freq) (s t : State),
    c.OpenDefaultModeClean → execOn c (.beginTrans mode order freq) s = .next t →
    t.cmd0.extractLsb' 0 2 = mode ∧ (t.cmd0.getLsbD 12 = true ↔ order = 0x00#8)

/-- R108: after a BEGINTRANS that neither faulted nor was refused the session is open, the flag set and the cached
cells hold the decoded request. -/
def Obligations.BeginTransPostconditions : Prop :=
  ∀ (c : Config.Params) (mode : BitVec 2) (order : Byte) (freq : Freq) (s t : State),
    execOn c (.beginTrans mode order freq) s = .next t →
    t.halOpen = true ∧ t.initialized = true ∧ (t.clockPolarity, t.clockPhase) = modeDec mode ∧
      t.bitOrder = ordDec order

/-- R107: a second configuration right after a first overwrites it: registers, cached cells and session are those of
the second request alone. That HAL calls succeed and return is a premise (logs 10 and 16). -/
def Obligations.SecondConfigurationOverwrites : Prop :=
  ∀ (c : Config.Params) (first second : BitVec 2 × Byte × Freq) (s : State),
    first.2.2 ≠ 0 → second.2.2 ≠ 0 → s.initialized = s.halOpen →
    ∃ t₁ t₂ u : State, execOn c (settingsRequest first) s = .next t₁ ∧ execOn c (settingsRequest second) t₁ = .next t₂ ∧
      execOn c (settingsRequest second) s = .next u ∧
      t₂.cmd0 = u.cmd0 ∧ t₂.br = u.br ∧ t₂.cached = u.cached ∧ t₂.initialized = true ∧ t₂.halOpen = true

/-- R104, R100 ("independent of prior state"): two runs of one BEGINTRANS from any two states leave the same registers,
cached cells, flag and session. -/
def Obligations.ConfigurationIgnoresPriorState : Prop :=
  ∀ (c : Config.Params) (mode : BitVec 2) (order : Byte) (freq : Freq) (s s' t t' : State),
    execOn c (.beginTrans mode order freq) s = .next t → execOn c (.beginTrans mode order freq) s' = .next t' →
    t.cmd0 = t'.cmd0 ∧ t.br = t'.br ∧ t.cached = t'.cached ∧ t.initialized = t'.initialized ∧ t.halOpen = t'.halOpen

/-- R133, R210: where the computation fails BEGINTRANS completes and the seed's ratio and base are written.
That a failed call leaves the seed in place is the spec's own reading (92_eei_decisions D9, ASSUMED; log 23). -/
def Obligations.SeedOnFailedDivider : Prop :=
  ∀ (c : Config.Params) (mode : BitVec 2) (order : Byte) (freq : Freq) (s : State),
    freq ≠ 0 → s.initialized = s.halOpen → c.calcDiv freq = none →
    ∃ t, execOn c (.beginTrans mode order freq) s = .next t ∧
      cmdDivr t.cmd0 = cmdDivr c.cmdOpenDefault ||| c.seed.ratio ∧ t.br = c.seed.base.extractLsb' 0 8

/-- R214, R60: between the two writes of step 8 the command register holds the new value and the bit-rate register
still the open default; the rest of the operation is the second write and the return. -/
def Obligations.MixedSettingBetweenWrites : Prop :=
  ∀ (c : Config.Params) (mode : BitVec 2) (order : Byte) (freq : Freq) (s closed opened : State),
    freq ≠ 0 → btClose c (btOrder order (btModes mode s)) = .next closed →
    btReopen c (btDivider c freq closed) = .next opened →
    ∃ t, execOn c (.beginTrans mode order freq) s = .next t ∧
      (btUntilCmdWritten c opened).cmd0 = t.cmd0 ∧ (btUntilCmdWritten c opened).br = c.brOpenDefault ∧
      (btUntilCmdWritten c opened).seq = .s8 ∧ t = btReturn (btWriteBr c (btUntilCmdWritten c opened))

/-- R109: a BEGIN on a closed session and then n BEGINTRANS complete and record n Close and n + 1 Open events.
That HAL calls succeed and return is a premise (logs 10 and 16). -/
def Obligations.OpenCloseCounts : Prop :=
  ∀ (c : Config.Params) (requests : List (BitVec 2 × Byte × Freq)) (s : State),
    (∀ r ∈ requests, r.2.2 ≠ 0) → s.initialized = false → s.halOpen = false →
    ∃ t, runOn c (.opBegin :: requests.map settingsRequest) s = .next t ∧
      t.closes = s.closes + requests.length ∧ t.opens = s.opens + (requests.length + 1)

/-! ### Transfers (43_transfer) -/

/-- R160, R79: XFER8 on an open session returns the received byte, records the exchange and changes nothing else; the
received byte is a free value (R163, log 3), and the list of responses is the model's own (log 2). That HAL calls
succeed and return is a premise (logs 10 and 16). -/
def Obligations.Xfer8Exchanges : Prop :=
  ∀ (data : Byte) (s : State), s.halOpen = true →
    exec (.xfer8 data) s = .next { s with
      responses := s.responses ++ [.byte (Config.busUnit 8 s.draws 0)],
      hist := s.hist ++ [.writeRead8 1 [data] [Config.busUnit 8 s.draws 0]], draws := s.draws + 1, seq := .idle }

/-- R161, R79: XFER16 on an open session returns the received halfword as one unit; the received halfword is a free
value (R163, log 3), and the list of responses is the model's own (log 2). That HAL calls succeed and return is a
premise (logs 10 and 16). -/
def Obligations.Xfer16Exchanges : Prop :=
  ∀ (data : Half) (s : State), s.halOpen = true →
    exec (.xfer16 data) s = .next { s with
      responses := s.responses ++ [.half (Config.busUnit 16 s.draws 0)],
      hist := s.hist ++ [.writeRead16 1 [data] [Config.busUnit 16 s.draws 0]], draws := s.draws + 1, seq := .idle }

/-- R162, R65: XFERBUF on an open session with a buffer that does not wrap stores unit i of the received data at `addr
+ i`, touches no byte outside the buffer, transmits the original contents, and records the accesses in the order of R65
before the exchange. The received units are free values (R163, log 3); the order of the memory events before the
WriteRead follows program P5 (log 12), and the canonical form of memory is the model's own (log 7). That HAL calls
succeed and return is a premise (logs 10 and 16). -/
def Obligations.XferBufExchangesInPlace : Prop :=
  ∀ (addr : Addr) (count : BitVec 24) (s : State),
    s.mem.wf = true → addr.toNat + count.toNat ≤ 2 ^ 32 → s.halOpen = true →
    ∃ m : Memory, m.wf = true ∧
      (∀ i, i < count.toNat → m.read (addr.toNat + i) = Config.busUnit 8 s.draws i) ∧
      (∀ a, OutsideBuffer addr count.toNat a → m.read a = s.mem.read a) ∧
      exec (.xferBuf addr count) s = .next { s with
        mem := m,
        hist := s.hist ++
          bufferEvents (bytesAt s.mem addr count.toNat) (busUnits Config.params 8 s.draws count.toNat) addr ++
          [.writeRead8 count.toNat (bytesAt s.mem addr count.toNat) (busUnits Config.params 8 s.draws count.toNat)],
        draws := s.draws + 1, seq := .idle }

/-- R162, R185, R186: a wrapping buffer is refused before the session is looked at; a closed session faults. -/
def Obligations.XferBufStops : Prop :=
  ∀ (addr : Addr) (count : BitVec 24) (s : State),
    (2 ^ 32 < addr.toNat + count.toNat → exec (.xferBuf addr count) s = .refused .bufferWraps) ∧
    (addr.toNat + count.toNat ≤ 2 ^ 32 → s.halOpen = false → exec (.xferBuf addr count) s = .fault .transferNotOpen)

/-- R164: a transfer is legal exactly when the session is open; on a closed session it faults; and it does not read the
flag: with the flag at any other value, and the same bus oracle, it completes in the same way. That the received units
of the two runs agree rests on the oracle's form, which is the model's choice (log 3). That it completes is under
HalSucceeds and under the premise that every HAL call returns (logs 10 and 16). -/
def Obligations.TransferNeedsSession : Prop :=
  ∀ (c : Config.Params) (i : Instr) (s : State),
    i.mnemonic = "XFER8" ∨ i.mnemonic = "XFER16" ∨ i.mnemonic = "XFERBUF" → i.wf = true →
    ((∃ t, execOn c i s = .next t) ↔ s.halOpen = true) ∧
    (s.halOpen = false → execOn c i s = .fault .transferNotOpen) ∧
    ∀ (flag : Bool) (t : State), execOn c i s = .next t →
      execOn c i (s.withInitialized flag) = .next (t.withInitialized flag)

/-- R207, R203, R164: from an open session with the flag set, any sequence of well-formed operations without END
completes, and leaves the session open and the flag set. This is under HalSucceeds (R31, log 10) and under the premise
that every HAL call returns (R212, log 16), both built into the model. -/
def Obligations.NoEndNoStop : Prop :=
  ∀ (c : Config.Params) (is : List Instr) (s : State),
    s.initialized = true → s.halOpen = true → (∀ i ∈ is, i.wf = true ∧ i ≠ .opEnd) →
    ∃ t, runOn c is s = .next t ∧ t.initialized = true ∧ t.halOpen = true

/-! ### Hooks and the event callback (44_interrupt_hooks) -/

/-- R170 to R173: the four hooks have their words, are accepted in every state, and have no effect. -/
def Obligations.HooksNoEffect : Prop :=
  (∀ id : BitVec 32, encode (.usingInt id) = .request ((id.setWidth 64 <<< 32) ||| 0x8#64) ∧
    encode (.notUsingInt id) = .request ((id.setWidth 64 <<< 32) ||| 0x9#64)) ∧
  encode .attachInt = .request 0x000000000000000A#64 ∧ encode .detachInt = .request 0x000000000000000B#64 ∧
  ∀ (id : BitVec 32) (s : State),
    exec (.usingInt id) s = .next { s with seq := .idle } ∧ exec (.notUsingInt id) s = .next { s with seq := .idle } ∧
    exec .attachInt s = .next { s with seq := .idle } ∧ exec .detachInt s = .next { s with seq := .idle } ∧
    (s.seq = .idle → exec (.usingInt id) s = .next s ∧ exec (.notUsingInt id) s = .next s ∧
      exec .attachInt s = .next s ∧ exec .detachInt s = .next s)

/-- R174, R78: every event word decodes to CALLBACK, and CALLBACK has no effect. -/
def Obligations.CallbackNoEffect : Prop :=
  ∀ (evt : EvtWord) (s : State), decodeInput (.event evt) = .ok (.callback evt) ∧
    exec (.callback evt) s = .next { s with seq := .idle } ∧ (s.seq = .idle → exec (.callback evt) s = .next s)

/-- R174, R185: where a CALLBACK falls in the order of operations makes no difference to the run, with the same bus
oracle in both runs. That the received units of the two runs agree rests on the oracle being keyed by the exchange
counter, which is the model's choice (log 3). -/
def Obligations.CallbackCommutes : Prop :=
  ∀ (c : Config.Params) (before after : List Instr) (evt : EvtWord) (s : State), s.seq = .idle →
    runOn c (before ++ .callback evt :: after) s = runOn c (before ++ after) s

/-! ### Frames over all operations -/

/-- R21 to R23, R41: the cached settings are written by BEGINTRANS alone. -/
def Obligations.OnlyBeginTransWritesSettings : Prop :=
  ∀ (c : Config.Params) (i : Instr) (s t : State), execOn c i s = .next t → writesSettings i = false →
    t.clockPhase = s.clockPhase ∧ t.clockPolarity = s.clockPolarity ∧ t.bitOrder = s.bitOrder

/-- R35, R163, R24, R152, R170 to R174: no transfer, hook, callback or ENDTRANS changes a register, the session, the
flag or the descriptor. -/
def Obligations.RegistersFrame : Prop :=
  ∀ (c : Config.Params) (i : Instr) (s t : State), execOn c i s = .next t → drivesSession i = false →
    t.cmd0 = s.cmd0 ∧ t.br = s.br ∧ t.halOpen = s.halOpen ∧ t.initialized = s.initialized ∧ t.dd = s.dd

/-- R211, R41: END and ENDTRANS restore nothing: registers, session and cached settings keep their values (END with
END_CLOSES false, this machine). -/
def Obligations.SettingsOutliveTransaction : Prop :=
  ∀ (i : Instr) (s t : State), i = .opEnd ∨ i = .endTrans → exec i s = .next t →
    t.cmd0 = s.cmd0 ∧ t.br = s.br ∧ t.halOpen = s.halOpen ∧ t.cached = s.cached ∧ t.hist = s.hist

/-- R50, R162: every byte of caller memory outside the buffer an XFERBUF stores to is unchanged by every operation,
and all of memory by every other operation. -/
def Obligations.MemoryFrame : Prop :=
  ∀ (c : Config.Params) (i : Instr) (s t : State), execOn c i s = .next t →
    match storedBuffer i with
    | some (addr, count) => ∀ a, OutsideBuffer addr count a → t.mem.read a = s.mem.read a
    | none => t.mem = s.mem

/-- R29: the unused command-register entries are never written. No operation touches the inputs still to come: that
clause is about the model's own list of inputs (log 1) and no rule's. -/
def Obligations.UnusedRegistersFrame : Prop :=
  ∀ (c : Config.Params) (i : Instr) (s t : State), execOn c i s = .next t →
    t.cmdRest = s.cmdRest ∧ t.pending = s.pending

/-- R59, R58: the history only grows at its end. R79: XFER8 and XFER16 return one response each and every other
operation none; that the responses stand in a list that grows at its end is the model's own form (log 2). -/
def Obligations.HistoryGrows : Prop :=
  ∀ (c : Config.Params) (i : Instr) (s t : State), execOn c i s = .next t →
    s.hist <+: t.hist ∧ s.responses <+: t.responses ∧ t.responses.length = s.responses.length + responseCount i

/-! ### The divider's reference instance (41_divider part 2): statements about the reference instance alone -/

/-- R137, R132: an instance with the reference algorithm, and a rate that is RateRef where RateRef gives one, meets
the named premise RateNotExceeded. -/
def Obligations.ReferenceRateNotExceeded : Prop :=
  ∀ (fRef : Nat) (c : Config.Params), 0 < fRef → (∀ d q, rateRef fRef d = some q → c.rate d = q) →
    (withReference fRef c).RateNotExceeded

/-- R137, R134: such an instance with the reference algorithm meets the named premise RateClosestBelow among the
descriptors that RateRef gives a rate, those with a ratio of 0 to 3. -/
def Obligations.ReferenceRateClosestBelow : Prop :=
  ∀ (fRef : Nat) (c : Config.Params), 0 < fRef → (∀ d q, rateRef fRef d = some q → c.rate d = q) →
    (withReference fRef c).RateClosestBelow (fun d => d.ratio.toNat ≤ 3)

/-- R137: the reference instance answers exactly where the frequency is at least the reference clock over 4096, and
its answer has a ratio of at most 3 and a base of at most 255, so that BRVAL truncates nothing. -/
def Obligations.ReferenceDomain : Prop :=
  ∀ (fRef : Nat) (freq : Freq), 0 < fRef → freq ≠ 0 →
    ((calcDivRef fRef freq).isSome = true ↔ fRef ≤ 4096 * freq.toNat) ∧
    ∀ d, calcDivRef fRef freq = some d → d.ratio.toNat ≤ 3 ∧ d.base.toNat ≤ 255 ∧ (brVal d).toNat = d.base.toNat

/-- R138: the rows of the table that mark its boundaries, with the reference clock at 48 MHz. -/
def Obligations.ReferenceTable : Prop :=
  calcDivRef 48000000 4294967295#32 = some ⟨0#10, 0#32⟩ ∧ calcDivRef 48000000 24000000#32 = some ⟨0#10, 0#32⟩ ∧
  calcDivRef 48000000 23999999#32 = some ⟨0#10, 1#32⟩ ∧ calcDivRef 48000000 7000000#32 = some ⟨0#10, 3#32⟩ ∧
  calcDivRef 48000000 1000000#32 = some ⟨0#10, 23#32⟩ ∧ calcDivRef 48000000 93750#32 = some ⟨0#10, 255#32⟩ ∧
  calcDivRef 48000000 93749#32 = some ⟨1#10, 128#32⟩ ∧ calcDivRef 48000000 46874#32 = some ⟨2#10, 128#32⟩ ∧
  calcDivRef 48000000 23437#32 = some ⟨3#10, 128#32⟩ ∧ calcDivRef 48000000 11719#32 = some ⟨3#10, 255#32⟩ ∧
  calcDivRef 48000000 11718#32 = none ∧ calcDivRef 48000000 1#32 = none

/-! ### Configuration of an instance (41_divider R131) -/

/-- R131: an instance is accepted exactly when SEED and every answer of CalcDiv have a ratio below 1024; it then keeps
every proposed value and every other parameter, and otherwise it is refused with BadDescriptor. Every instance that the
other statements range over is accepted. That an answer at frequency 0 counts is this model's reading (log 17). -/
def Obligations.InstanceConfigured : Prop :=
  (∀ (seed : RawDescriptor) (answers : Freq → Option RawDescriptor) (rest : Config.Params),
    ((seed.ratio < 1024 ∧ ∀ freq d, answers freq = some d → d.ratio < 1024) →
      ∃ c : Config.Params, configureInstance seed answers rest = .ok c ∧ rawOf c.seed = seed ∧
        (∀ freq, (c.calcDiv freq).map rawOf = answers freq) ∧
        c = { rest with seed := c.seed, calcDiv := c.calcDiv }) ∧
    (1024 ≤ seed.ratio → configureInstance seed answers rest = .error .badDescriptor) ∧
    (∀ freq d, answers freq = some d → 1024 ≤ d.ratio → configureInstance seed answers rest = .error .badDescriptor)) ∧
  ∀ c : Config.Params, configureInstance (rawOf c.seed) (fun freq => (c.calcDiv freq).map rawOf) c = .ok c
end

