-- ==== Sys2Proof/Laws/Divider.lean ====
section
/-! SUPPORT. The laws of the check that an instance passes when it is configured (41_divider R131). -/

namespace Sys2Proof.Machine

@[simp] theorem RawDescriptor.fits_iff (d : RawDescriptor) : d.fits = true ↔ d.ratio < 1024 := by
  simp [RawDescriptor.fits]

/-- Narrowing a well-formed descriptor gives it back. -/
@[simp] theorem narrow_rawOf (d : Descriptor) : (rawOf d).narrow = d := by
  simp [RawDescriptor.narrow, rawOf]

/-- Narrowing a fitting proposal keeps its ratio and base. -/
theorem rawOf_narrow {d : RawDescriptor} (h : d.ratio < 1024) : rawOf d.narrow = d := by
  simp [RawDescriptor.narrow, rawOf, Nat.mod_eq_of_lt h]

/-- A well-formed descriptor passes the check. -/
theorem rawOf_fits (d : Descriptor) : (rawOf d).ratio < 1024 := d.ratio.isLt

/-- The check of a proposed CalcDiv looks at every frequency. -/
theorem answersFit_iff {answers : Freq → Option RawDescriptor} :
    answersFit answers = true ↔ ∀ freq d, answers freq = some d → d.ratio < 1024 := by
  unfold answersFit
  constructor
  · intro h freq d hd
    have := List.all_eq_true.1 h freq.toNat (List.mem_range.2 freq.isLt)
    rw [BitVec.ofNat_toNat, BitVec.setWidth_eq, hd] at this
    exact (RawDescriptor.fits_iff d).1 this
  · intro h
    refine List.all_eq_true.2 (fun n _ => ?_)
    exact (Option.all_eq_true _ _).2 (fun d hd => (RawDescriptor.fits_iff d).2 (h _ d hd))

/-- What the check of one proposal answers. -/
theorem configureDescriptor_eq (ratio : Nat) (base : BitVec 32) :
    configureDescriptor ratio base =
      if ratio < 1024 then .ok (RawDescriptor.narrow ⟨ratio, base⟩) else .error .badDescriptor := by
  simp only [configureDescriptor, RawDescriptor.fits_iff]

/-- A proposed CalcDiv whose answers all fit is accepted with the narrowed answers. -/
theorem configureCalcDiv_accepts {answers : Freq → Option RawDescriptor}
    (h : ∀ freq d, answers freq = some d → d.ratio < 1024) :
    configureCalcDiv answers = .ok (fun freq => (answers freq).map RawDescriptor.narrow) :=
  if_pos (answersFit_iff.2 h)

/-- A proposed CalcDiv with one answer that does not fit is refused. -/
theorem configureCalcDiv_refuses {answers : Freq → Option RawDescriptor} {freq : Freq} {d : RawDescriptor}
    (hd : answers freq = some d) (h : 1024 ≤ d.ratio) : configureCalcDiv answers = .error .badDescriptor :=
  if_neg (fun hf => Nat.not_lt.2 h (answersFit_iff.1 hf freq d hd))

/-- An instance whose SEED and answers all fit is accepted with the narrowed values. -/
theorem configureInstance_accepts {seed : RawDescriptor} {answers : Freq → Option RawDescriptor}
    (rest : Config.Params) (hs : seed.ratio < 1024) (ha : ∀ freq d, answers freq = some d → d.ratio < 1024) :
    configureInstance seed answers rest =
      .ok { rest with seed := seed.narrow, calcDiv := fun freq => (answers freq).map RawDescriptor.narrow } := by
  rw [configureInstance, configureDescriptor_eq, if_pos hs, configureCalcDiv_accepts ha]

/-- An instance whose SEED does not fit is refused. -/
theorem configureInstance_refuses_seed {seed : RawDescriptor} (answers : Freq → Option RawDescriptor)
    (rest : Config.Params) (hs : 1024 ≤ seed.ratio) :
    configureInstance seed answers rest = .error .badDescriptor := by
  rw [configureInstance, configureDescriptor_eq, if_neg (Nat.not_lt.2 hs)]

/-- An instance with one answer that does not fit is refused. -/
theorem configureInstance_refuses_answer (seed : RawDescriptor) {answers : Freq → Option RawDescriptor}
    (rest : Config.Params) {freq : Freq} {d : RawDescriptor} (hd : answers freq = some d) (h : 1024 ≤ d.ratio) :
    configureInstance seed answers rest = .error .badDescriptor := by
  rw [configureInstance, configureDescriptor_eq, configureCalcDiv_refuses hd h]
  by_cases hs : seed.ratio < 1024
  · rw [if_pos hs]
  · rw [if_neg hs]

end Sys2Proof.Machine
end

