-- ==== Sys2Proof/Laws/Instance.lean ====
section
/-! SUPPORT. The machine is the instance form at this machine's parameters. -/

namespace Sys2Proof.Machine

/-- Every claim proved of `execOn c` for all `c` is a claim about `exec`. -/
theorem exec_eq_execOn (i : Instr) (s : State) : exec i s = execOn Config.params i s := by
  cases i <;> rfl

/-- Every claim proved of `stepOn c` for all `c` is a claim about `step`. -/
theorem step_eq_stepOn (s : State) : step s = stepOn Config.params s := by
  have h : exec = execOn Config.params := funext fun i => funext fun t => exec_eq_execOn i t
  rw [step, stepOn, h]

end Sys2Proof.Machine
end

