-- ==== Sys2Proof/Laws/Memory.lean ====
section
/-! SUPPORT. The laws of caller memory: a byte written is the byte read, every other byte stays, and the canonical
form is kept. -/

namespace Sys2Proof.Machine

@[simp] theorem Memory.read_nil (a : Nat) : Memory.read [] a = Memory.unlisted := rfl

@[simp] theorem Memory.read_cons (k : Nat) (x : Byte) (m : Memory) (a : Nat) :
    Memory.read ((k, x) :: m) a = if k = a then x else Memory.read m a := rfl

/-- The parts of the canonical form of a listed memory. -/
theorem Memory.wf_cons_iff (k : Nat) (x : Byte) (m : Memory) :
    Memory.wf ((k, x) :: m) = true ↔
      k < 2 ^ 32 ∧ x ≠ Memory.unlisted ∧ (∀ cell ∈ m, k < cell.1) ∧ Memory.wf m = true := by
  simp [Memory.wf, and_assoc]

/-- An address below every listed one is unlisted. -/
theorem Memory.read_of_below {m : Memory} {a : Nat} (h : ∀ cell ∈ m, a < cell.1) :
    Memory.read m a = Memory.unlisted := by
  induction m with
  | nil => rfl
  | cons cell m ih =>
    obtain ⟨k, x⟩ := cell
    have hk : a < k := h (k, x) (by simp)
    simp [Nat.ne_of_gt hk, ih fun c hc => h c (by simp [hc])]

theorem Memory.read_consCell_other {a b : Nat} (hab : a ≠ b) (v : Byte) (m : Memory) :
    Memory.read (Memory.consCell a v m) b = Memory.read m b := by
  unfold Memory.consCell
  split <;> simp [hab]

theorem Memory.read_consCell_same {a : Nat} (v : Byte) {m : Memory} (h : ∀ cell ∈ m, a < cell.1) :
    Memory.read (Memory.consCell a v m) a = v := by
  unfold Memory.consCell
  split
  · next hv => rw [Memory.read_of_below h, hv]
  · simp

/-- A write leaves every other byte alone; this holds in any list of cells. -/
theorem Memory.read_write_other {m : Memory} {a b : Nat} (hab : a ≠ b) (v : Byte) :
    Memory.read (Memory.write m a v) b = Memory.read m b := by
  induction m with
  | nil => simp [Memory.write, Memory.read_consCell_other hab]
  | cons cell m ih =>
    obtain ⟨k, x⟩ := cell
    simp only [Memory.write]
    split
    · exact Memory.read_consCell_other hab v _
    · split
      · next hk => subst hk; simp [Memory.read_consCell_other hab, hab]
      · simp [ih]

theorem Memory.below_of_wf {k : Nat} {x : Byte} {m : Memory} (h : Memory.wf ((k, x) :: m) = true) {a : Nat}
    (ha : a ≤ k) : ∀ cell ∈ m, a < cell.1 := fun cell hc =>
  Nat.lt_of_le_of_lt ha (((Memory.wf_cons_iff k x m).1 h).2.2.1 cell hc)

/-- A byte written is the byte read. -/
theorem Memory.read_write_same {m : Memory} (h : m.wf = true) (a : Nat) (v : Byte) :
    Memory.read (Memory.write m a v) a = v := by
  induction m with
  | nil => exact Memory.read_consCell_same v (by simp)
  | cons cell m ih =>
    obtain ⟨k, x⟩ := cell
    simp only [Memory.write]
    split
    · next hak =>
      refine Memory.read_consCell_same v ?_
      intro c hc
      rcases List.mem_cons.1 hc with rfl | hc
      · exact hak
      · exact Memory.below_of_wf h hak.le c hc
    · split
      · next hk => subst hk; exact Memory.read_consCell_same v (Memory.below_of_wf h le_rfl)
      · next hk => simp [Ne.symm hk, ih ((Memory.wf_cons_iff k x m).1 h).2.2.2]

theorem Memory.wf_consCell {a : Nat} {v : Byte} {m : Memory} (ha : a < 2 ^ 32) (hb : ∀ cell ∈ m, a < cell.1)
    (h : m.wf = true) : (Memory.consCell a v m).wf = true := by
  unfold Memory.consCell
  split
  · exact h
  · next hv => exact (Memory.wf_cons_iff a v m).2 ⟨ha, hv, hb, h⟩

theorem Memory.mem_consCell {a : Nat} {v : Byte} {m : Memory} {cell : Host.Cell}
    (h : cell ∈ Memory.consCell a v m) : cell.1 = a ∨ cell ∈ m := by
  unfold Memory.consCell at h
  split at h
  · exact .inr h
  · rcases List.mem_cons.1 h with rfl | h
    · exact .inl rfl
    · exact .inr h

/-- Every address a write lists was listed or is the one written. -/
theorem Memory.mem_write {m : Memory} {a : Nat} {v : Byte} {cell : Host.Cell}
    (h : cell ∈ Memory.write m a v) : cell.1 = a ∨ cell ∈ m := by
  induction m with
  | nil => exact Memory.mem_consCell h
  | cons c m ih =>
    obtain ⟨k, x⟩ := c
    simp only [Memory.write] at h
    split at h
    · exact Memory.mem_consCell h
    · split at h
      · exact (Memory.mem_consCell h).imp_right (List.mem_cons_of_mem _)
      · rcases List.mem_cons.1 h with rfl | h
        · simp
        · exact (ih h).imp_right (List.mem_cons_of_mem _)

/-- A write inside the address space keeps the canonical form. -/
theorem Memory.wf_write {m : Memory} (h : m.wf = true) {a : Nat} (ha : a < 2 ^ 32) (v : Byte) :
    (Memory.write m a v).wf = true := by
  induction m with
  | nil => exact Memory.wf_consCell ha (by simp) rfl
  | cons cell m ih =>
    obtain ⟨k, x⟩ := cell
    have hm := (Memory.wf_cons_iff k x m).1 h
    simp only [Memory.write]
    split
    · next hak =>
      refine Memory.wf_consCell ha ?_ h
      intro c hc
      rcases List.mem_cons.1 hc with rfl | hc
      · exact hak
      · exact Memory.below_of_wf h hak.le c hc
    · split
      · next hk => subst hk; exact Memory.wf_consCell ha (Memory.below_of_wf h le_rfl) hm.2.2.2
      · next hlt hk =>
        refine (Memory.wf_cons_iff k x _).2 ⟨hm.1, hm.2.1, ?_, ih hm.2.2.2⟩
        intro c hc
        rcases Memory.mem_write hc with h' | h'
        · omega
        · exact hm.2.2.1 c h'

end Sys2Proof.Machine
end

