-- ==== Sys2Proof/Laws/State.lean ====
section
/-! SUPPORT. One lemma per field per update of the state, so that no later proof unfolds a record update. -/

namespace Sys2Proof.Machine

variable (s : State)

@[simp] theorem State.withMode_clockPhase (pol : ClockPolarity) (pha : ClockPhase) : (s.withMode pol pha).clockPhase = pha := rfl
@[simp] theorem State.withMode_clockPolarity (pol : ClockPolarity) (pha : ClockPhase) : (s.withMode pol pha).clockPolarity = pol := rfl
@[simp] theorem State.withMode_bitOrder (pol : ClockPolarity) (pha : ClockPhase) : (s.withMode pol pha).bitOrder = s.bitOrder := rfl
@[simp] theorem State.withMode_initialized (pol : ClockPolarity) (pha : ClockPhase) : (s.withMode pol pha).initialized = s.initialized := rfl
@[simp] theorem State.withMode_dd (pol : ClockPolarity) (pha : ClockPhase) : (s.withMode pol pha).dd = s.dd := rfl
@[simp] theorem State.withMode_seq (pol : ClockPolarity) (pha : ClockPhase) : (s.withMode pol pha).seq = s.seq := rfl
@[simp] theorem State.withMode_cmd0 (pol : ClockPolarity) (pha : ClockPhase) : (s.withMode pol pha).cmd0 = s.cmd0 := rfl
@[simp] theorem State.withMode_cmdRest (pol : ClockPolarity) (pha : ClockPhase) : (s.withMode pol pha).cmdRest = s.cmdRest := rfl
@[simp] theorem State.withMode_br (pol : ClockPolarity) (pha : ClockPhase) : (s.withMode pol pha).br = s.br := rfl
@[simp] theorem State.withMode_halOpen (pol : ClockPolarity) (pha : ClockPhase) : (s.withMode pol pha).halOpen = s.halOpen := rfl
@[simp] theorem State.withMode_mem (pol : ClockPolarity) (pha : ClockPhase) : (s.withMode pol pha).mem = s.mem := rfl
@[simp] theorem State.withMode_hist (pol : ClockPolarity) (pha : ClockPhase) : (s.withMode pol pha).hist = s.hist := rfl
@[simp] theorem State.withMode_responses (pol : ClockPolarity) (pha : ClockPhase) : (s.withMode pol pha).responses = s.responses := rfl
@[simp] theorem State.withMode_pending (pol : ClockPolarity) (pha : ClockPhase) : (s.withMode pol pha).pending = s.pending := rfl
@[simp] theorem State.withMode_draws (pol : ClockPolarity) (pha : ClockPhase) : (s.withMode pol pha).draws = s.draws := rfl

@[simp] theorem State.withOrder_clockPhase (ord : BitOrder) : (s.withOrder ord).clockPhase = s.clockPhase := rfl
@[simp] theorem State.withOrder_clockPolarity (ord : BitOrder) : (s.withOrder ord).clockPolarity = s.clockPolarity := rfl
@[simp] theorem State.withOrder_bitOrder (ord : BitOrder) : (s.withOrder ord).bitOrder = ord := rfl
@[simp] theorem State.withOrder_initialized (ord : BitOrder) : (s.withOrder ord).initialized = s.initialized := rfl
@[simp] theorem State.withOrder_dd (ord : BitOrder) : (s.withOrder ord).dd = s.dd := rfl
@[simp] theorem State.withOrder_seq (ord : BitOrder) : (s.withOrder ord).seq = s.seq := rfl
@[simp] theorem State.withOrder_cmd0 (ord : BitOrder) : (s.withOrder ord).cmd0 = s.cmd0 := rfl
@[simp] theorem State.withOrder_cmdRest (ord : BitOrder) : (s.withOrder ord).cmdRest = s.cmdRest := rfl
@[simp] theorem State.withOrder_br (ord : BitOrder) : (s.withOrder ord).br = s.br := rfl
@[simp] theorem State.withOrder_halOpen (ord : BitOrder) : (s.withOrder ord).halOpen = s.halOpen := rfl
@[simp] theorem State.withOrder_mem (ord : BitOrder) : (s.withOrder ord).mem = s.mem := rfl
@[simp] theorem State.withOrder_hist (ord : BitOrder) : (s.withOrder ord).hist = s.hist := rfl
@[simp] theorem State.withOrder_responses (ord : BitOrder) : (s.withOrder ord).responses = s.responses := rfl
@[simp] theorem State.withOrder_pending (ord : BitOrder) : (s.withOrder ord).pending = s.pending := rfl
@[simp] theorem State.withOrder_draws (ord : BitOrder) : (s.withOrder ord).draws = s.draws := rfl

@[simp] theorem State.withInitialized_clockPhase (b : Bool) : (s.withInitialized b).clockPhase = s.clockPhase := rfl
@[simp] theorem State.withInitialized_clockPolarity (b : Bool) : (s.withInitialized b).clockPolarity = s.clockPolarity := rfl
@[simp] theorem State.withInitialized_bitOrder (b : Bool) : (s.withInitialized b).bitOrder = s.bitOrder := rfl
@[simp] theorem State.withInitialized_initialized (b : Bool) : (s.withInitialized b).initialized = b := rfl
@[simp] theorem State.withInitialized_dd (b : Bool) : (s.withInitialized b).dd = s.dd := rfl
@[simp] theorem State.withInitialized_seq (b : Bool) : (s.withInitialized b).seq = s.seq := rfl
@[simp] theorem State.withInitialized_cmd0 (b : Bool) : (s.withInitialized b).cmd0 = s.cmd0 := rfl
@[simp] theorem State.withInitialized_cmdRest (b : Bool) : (s.withInitialized b).cmdRest = s.cmdRest := rfl
@[simp] theorem State.withInitialized_br (b : Bool) : (s.withInitialized b).br = s.br := rfl
@[simp] theorem State.withInitialized_halOpen (b : Bool) : (s.withInitialized b).halOpen = s.halOpen := rfl
@[simp] theorem State.withInitialized_mem (b : Bool) : (s.withInitialized b).mem = s.mem := rfl
@[simp] theorem State.withInitialized_hist (b : Bool) : (s.withInitialized b).hist = s.hist := rfl
@[simp] theorem State.withInitialized_responses (b : Bool) : (s.withInitialized b).responses = s.responses := rfl
@[simp] theorem State.withInitialized_pending (b : Bool) : (s.withInitialized b).pending = s.pending := rfl
@[simp] theorem State.withInitialized_draws (b : Bool) : (s.withInitialized b).draws = s.draws := rfl

@[simp] theorem State.withDd_clockPhase (d : Option Descriptor) : (s.withDd d).clockPhase = s.clockPhase := rfl
@[simp] theorem State.withDd_clockPolarity (d : Option Descriptor) : (s.withDd d).clockPolarity = s.clockPolarity := rfl
@[simp] theorem State.withDd_bitOrder (d : Option Descriptor) : (s.withDd d).bitOrder = s.bitOrder := rfl
@[simp] theorem State.withDd_initialized (d : Option Descriptor) : (s.withDd d).initialized = s.initialized := rfl
@[simp] theorem State.withDd_dd (d : Option Descriptor) : (s.withDd d).dd = d := rfl
@[simp] theorem State.withDd_seq (d : Option Descriptor) : (s.withDd d).seq = s.seq := rfl
@[simp] theorem State.withDd_cmd0 (d : Option Descriptor) : (s.withDd d).cmd0 = s.cmd0 := rfl
@[simp] theorem State.withDd_cmdRest (d : Option Descriptor) : (s.withDd d).cmdRest = s.cmdRest := rfl
@[simp] theorem State.withDd_br (d : Option Descriptor) : (s.withDd d).br = s.br := rfl
@[simp] theorem State.withDd_halOpen (d : Option Descriptor) : (s.withDd d).halOpen = s.halOpen := rfl
@[simp] theorem State.withDd_mem (d : Option Descriptor) : (s.withDd d).mem = s.mem := rfl
@[simp] theorem State.withDd_hist (d : Option Descriptor) : (s.withDd d).hist = s.hist := rfl
@[simp] theorem State.withDd_responses (d : Option Descriptor) : (s.withDd d).responses = s.responses := rfl
@[simp] theorem State.withDd_pending (d : Option Descriptor) : (s.withDd d).pending = s.pending := rfl
@[simp] theorem State.withDd_draws (d : Option Descriptor) : (s.withDd d).draws = s.draws := rfl

@[simp] theorem State.withSeq_clockPhase (q : Seq) : (s.withSeq q).clockPhase = s.clockPhase := rfl
@[simp] theorem State.withSeq_clockPolarity (q : Seq) : (s.withSeq q).clockPolarity = s.clockPolarity := rfl
@[simp] theorem State.withSeq_bitOrder (q : Seq) : (s.withSeq q).bitOrder = s.bitOrder := rfl
@[simp] theorem State.withSeq_initialized (q : Seq) : (s.withSeq q).initialized = s.initialized := rfl
@[simp] theorem State.withSeq_dd (q : Seq) : (s.withSeq q).dd = s.dd := rfl
@[simp] theorem State.withSeq_seq (q : Seq) : (s.withSeq q).seq = q := rfl
@[simp] theorem State.withSeq_cmd0 (q : Seq) : (s.withSeq q).cmd0 = s.cmd0 := rfl
@[simp] theorem State.withSeq_cmdRest (q : Seq) : (s.withSeq q).cmdRest = s.cmdRest := rfl
@[simp] theorem State.withSeq_br (q : Seq) : (s.withSeq q).br = s.br := rfl
@[simp] theorem State.withSeq_halOpen (q : Seq) : (s.withSeq q).halOpen = s.halOpen := rfl
@[simp] theorem State.withSeq_mem (q : Seq) : (s.withSeq q).mem = s.mem := rfl
@[simp] theorem State.withSeq_hist (q : Seq) : (s.withSeq q).hist = s.hist := rfl
@[simp] theorem State.withSeq_responses (q : Seq) : (s.withSeq q).responses = s.responses := rfl
@[simp] theorem State.withSeq_pending (q : Seq) : (s.withSeq q).pending = s.pending := rfl
@[simp] theorem State.withSeq_draws (q : Seq) : (s.withSeq q).draws = s.draws := rfl

@[simp] theorem State.withCmd0_clockPhase (v : Half) : (s.withCmd0 v).clockPhase = s.clockPhase := rfl
@[simp] theorem State.withCmd0_clockPolarity (v : Half) : (s.withCmd0 v).clockPolarity = s.clockPolarity := rfl
@[simp] theorem State.withCmd0_bitOrder (v : Half) : (s.withCmd0 v).bitOrder = s.bitOrder := rfl
@[simp] theorem State.withCmd0_initialized (v : Half) : (s.withCmd0 v).initialized = s.initialized := rfl
@[simp] theorem State.withCmd0_dd (v : Half) : (s.withCmd0 v).dd = s.dd := rfl
@[simp] theorem State.withCmd0_seq (v : Half) : (s.withCmd0 v).seq = s.seq := rfl
@[simp] theorem State.withCmd0_cmd0 (v : Half) : (s.withCmd0 v).cmd0 = v := rfl
@[simp] theorem State.withCmd0_cmdRest (v : Half) : (s.withCmd0 v).cmdRest = s.cmdRest := rfl
@[simp] theorem State.withCmd0_br (v : Half) : (s.withCmd0 v).br = s.br := rfl
@[simp] theorem State.withCmd0_halOpen (v : Half) : (s.withCmd0 v).halOpen = s.halOpen := rfl
@[simp] theorem State.withCmd0_mem (v : Half) : (s.withCmd0 v).mem = s.mem := rfl
@[simp] theorem State.withCmd0_hist (v : Half) : (s.withCmd0 v).hist = s.hist := rfl
@[simp] theorem State.withCmd0_responses (v : Half) : (s.withCmd0 v).responses = s.responses := rfl
@[simp] theorem State.withCmd0_pending (v : Half) : (s.withCmd0 v).pending = s.pending := rfl
@[simp] theorem State.withCmd0_draws (v : Half) : (s.withCmd0 v).draws = s.draws := rfl

@[simp] theorem State.withBr_clockPhase (v : Byte) : (s.withBr v).clockPhase = s.clockPhase := rfl
@[simp] theorem State.withBr_clockPolarity (v : Byte) : (s.withBr v).clockPolarity = s.clockPolarity := rfl
@[simp] theorem State.withBr_bitOrder (v : Byte) : (s.withBr v).bitOrder = s.bitOrder := rfl
@[simp] theorem State.withBr_initialized (v : Byte) : (s.withBr v).initialized = s.initialized := rfl
@[simp] theorem State.withBr_dd (v : Byte) : (s.withBr v).dd = s.dd := rfl
@[simp] theorem State.withBr_seq (v : Byte) : (s.withBr v).seq = s.seq := rfl
@[simp] theorem State.withBr_cmd0 (v : Byte) : (s.withBr v).cmd0 = s.cmd0 := rfl
@[simp] theorem State.withBr_cmdRest (v : Byte) : (s.withBr v).cmdRest = s.cmdRest := rfl
@[simp] theorem State.withBr_br (v : Byte) : (s.withBr v).br = v := rfl
@[simp] theorem State.withBr_halOpen (v : Byte) : (s.withBr v).halOpen = s.halOpen := rfl
@[simp] theorem State.withBr_mem (v : Byte) : (s.withBr v).mem = s.mem := rfl
@[simp] theorem State.withBr_hist (v : Byte) : (s.withBr v).hist = s.hist := rfl
@[simp] theorem State.withBr_responses (v : Byte) : (s.withBr v).responses = s.responses := rfl
@[simp] theorem State.withBr_pending (v : Byte) : (s.withBr v).pending = s.pending := rfl
@[simp] theorem State.withBr_draws (v : Byte) : (s.withBr v).draws = s.draws := rfl

@[simp] theorem State.withHalOpen_clockPhase (b : Bool) : (s.withHalOpen b).clockPhase = s.clockPhase := rfl
@[simp] theorem State.withHalOpen_clockPolarity (b : Bool) : (s.withHalOpen b).clockPolarity = s.clockPolarity := rfl
@[simp] theorem State.withHalOpen_bitOrder (b : Bool) : (s.withHalOpen b).bitOrder = s.bitOrder := rfl
@[simp] theorem State.withHalOpen_initialized (b : Bool) : (s.withHalOpen b).initialized = s.initialized := rfl
@[simp] theorem State.withHalOpen_dd (b : Bool) : (s.withHalOpen b).dd = s.dd := rfl
@[simp] theorem State.withHalOpen_seq (b : Bool) : (s.withHalOpen b).seq = s.seq := rfl
@[simp] theorem State.withHalOpen_cmd0 (b : Bool) : (s.withHalOpen b).cmd0 = s.cmd0 := rfl
@[simp] theorem State.withHalOpen_cmdRest (b : Bool) : (s.withHalOpen b).cmdRest = s.cmdRest := rfl
@[simp] theorem State.withHalOpen_br (b : Bool) : (s.withHalOpen b).br = s.br := rfl
@[simp] theorem State.withHalOpen_halOpen (b : Bool) : (s.withHalOpen b).halOpen = b := rfl
@[simp] theorem State.withHalOpen_mem (b : Bool) : (s.withHalOpen b).mem = s.mem := rfl
@[simp] theorem State.withHalOpen_hist (b : Bool) : (s.withHalOpen b).hist = s.hist := rfl
@[simp] theorem State.withHalOpen_responses (b : Bool) : (s.withHalOpen b).responses = s.responses := rfl
@[simp] theorem State.withHalOpen_pending (b : Bool) : (s.withHalOpen b).pending = s.pending := rfl
@[simp] theorem State.withHalOpen_draws (b : Bool) : (s.withHalOpen b).draws = s.draws := rfl

@[simp] theorem State.withMem_clockPhase (m : Memory) : (s.withMem m).clockPhase = s.clockPhase := rfl
@[simp] theorem State.withMem_clockPolarity (m : Memory) : (s.withMem m).clockPolarity = s.clockPolarity := rfl
@[simp] theorem State.withMem_bitOrder (m : Memory) : (s.withMem m).bitOrder = s.bitOrder := rfl
@[simp] theorem State.withMem_initialized (m : Memory) : (s.withMem m).initialized = s.initialized := rfl
@[simp] theorem State.withMem_dd (m : Memory) : (s.withMem m).dd = s.dd := rfl
@[simp] theorem State.withMem_seq (m : Memory) : (s.withMem m).seq = s.seq := rfl
@[simp] theorem State.withMem_cmd0 (m : Memory) : (s.withMem m).cmd0 = s.cmd0 := rfl
@[simp] theorem State.withMem_cmdRest (m : Memory) : (s.withMem m).cmdRest = s.cmdRest := rfl
@[simp] theorem State.withMem_br (m : Memory) : (s.withMem m).br = s.br := rfl
@[simp] theorem State.withMem_halOpen (m : Memory) : (s.withMem m).halOpen = s.halOpen := rfl
@[simp] theorem State.withMem_mem (m : Memory) : (s.withMem m).mem = m := rfl
@[simp] theorem State.withMem_hist (m : Memory) : (s.withMem m).hist = s.hist := rfl
@[simp] theorem State.withMem_responses (m : Memory) : (s.withMem m).responses = s.responses := rfl
@[simp] theorem State.withMem_pending (m : Memory) : (s.withMem m).pending = s.pending := rfl
@[simp] theorem State.withMem_draws (m : Memory) : (s.withMem m).draws = s.draws := rfl

@[simp] theorem State.record_clockPhase (e : Event) : (s.record e).clockPhase = s.clockPhase := rfl
@[simp] theorem State.record_clockPolarity (e : Event) : (s.record e).clockPolarity = s.clockPolarity := rfl
@[simp] theorem State.record_bitOrder (e : Event) : (s.record e).bitOrder = s.bitOrder := rfl
@[simp] theorem State.record_initialized (e : Event) : (s.record e).initialized = s.initialized := rfl
@[simp] theorem State.record_dd (e : Event) : (s.record e).dd = s.dd := rfl
@[simp] theorem State.record_seq (e : Event) : (s.record e).seq = s.seq := rfl
@[simp] theorem State.record_cmd0 (e : Event) : (s.record e).cmd0 = s.cmd0 := rfl
@[simp] theorem State.record_cmdRest (e : Event) : (s.record e).cmdRest = s.cmdRest := rfl
@[simp] theorem State.record_br (e : Event) : (s.record e).br = s.br := rfl
@[simp] theorem State.record_halOpen (e : Event) : (s.record e).halOpen = s.halOpen := rfl
@[simp] theorem State.record_mem (e : Event) : (s.record e).mem = s.mem := rfl
@[simp] theorem State.record_hist (e : Event) : (s.record e).hist = s.hist ++ [e] := rfl
@[simp] theorem State.record_responses (e : Event) : (s.record e).responses = s.responses := rfl
@[simp] theorem State.record_pending (e : Event) : (s.record e).pending = s.pending := rfl
@[simp] theorem State.record_draws (e : Event) : (s.record e).draws = s.draws := rfl

@[simp] theorem State.respond_clockPhase (r : Response) : (s.respond r).clockPhase = s.clockPhase := rfl
@[simp] theorem State.respond_clockPolarity (r : Response) : (s.respond r).clockPolarity = s.clockPolarity := rfl
@[simp] theorem State.respond_bitOrder (r : Response) : (s.respond r).bitOrder = s.bitOrder := rfl
@[simp] theorem State.respond_initialized (r : Response) : (s.respond r).initialized = s.initialized := rfl
@[simp] theorem State.respond_dd (r : Response) : (s.respond r).dd = s.dd := rfl
@[simp] theorem State.respond_seq (r : Response) : (s.respond r).seq = s.seq := rfl
@[simp] theorem State.respond_cmd0 (r : Response) : (s.respond r).cmd0 = s.cmd0 := rfl
@[simp] theorem State.respond_cmdRest (r : Response) : (s.respond r).cmdRest = s.cmdRest := rfl
@[simp] theorem State.respond_br (r : Response) : (s.respond r).br = s.br := rfl
@[simp] theorem State.respond_halOpen (r : Response) : (s.respond r).halOpen = s.halOpen := rfl
@[simp] theorem State.respond_mem (r : Response) : (s.respond r).mem = s.mem := rfl
@[simp] theorem State.respond_hist (r : Response) : (s.respond r).hist = s.hist := rfl
@[simp] theorem State.respond_responses (r : Response) : (s.respond r).responses = s.responses ++ [r] := rfl
@[simp] theorem State.respond_pending (r : Response) : (s.respond r).pending = s.pending := rfl
@[simp] theorem State.respond_draws (r : Response) : (s.respond r).draws = s.draws := rfl

@[simp] theorem State.withPending_clockPhase (l : List Input) : (s.withPending l).clockPhase = s.clockPhase := rfl
@[simp] theorem State.withPending_clockPolarity (l : List Input) : (s.withPending l).clockPolarity = s.clockPolarity := rfl
@[simp] theorem State.withPending_bitOrder (l : List Input) : (s.withPending l).bitOrder = s.bitOrder := rfl
@[simp] theorem State.withPending_initialized (l : List Input) : (s.withPending l).initialized = s.initialized := rfl
@[simp] theorem State.withPending_dd (l : List Input) : (s.withPending l).dd = s.dd := rfl
@[simp] theorem State.withPending_seq (l : List Input) : (s.withPending l).seq = s.seq := rfl
@[simp] theorem State.withPending_cmd0 (l : List Input) : (s.withPending l).cmd0 = s.cmd0 := rfl
@[simp] theorem State.withPending_cmdRest (l : List Input) : (s.withPending l).cmdRest = s.cmdRest := rfl
@[simp] theorem State.withPending_br (l : List Input) : (s.withPending l).br = s.br := rfl
@[simp] theorem State.withPending_halOpen (l : List Input) : (s.withPending l).halOpen = s.halOpen := rfl
@[simp] theorem State.withPending_mem (l : List Input) : (s.withPending l).mem = s.mem := rfl
@[simp] theorem State.withPending_hist (l : List Input) : (s.withPending l).hist = s.hist := rfl
@[simp] theorem State.withPending_responses (l : List Input) : (s.withPending l).responses = s.responses := rfl
@[simp] theorem State.withPending_pending (l : List Input) : (s.withPending l).pending = l := rfl
@[simp] theorem State.withPending_draws (l : List Input) : (s.withPending l).draws = s.draws := rfl

@[simp] theorem State.drawn_clockPhase : (s.drawn).clockPhase = s.clockPhase := rfl
@[simp] theorem State.drawn_clockPolarity : (s.drawn).clockPolarity = s.clockPolarity := rfl
@[simp] theorem State.drawn_bitOrder : (s.drawn).bitOrder = s.bitOrder := rfl
@[simp] theorem State.drawn_initialized : (s.drawn).initialized = s.initialized := rfl
@[simp] theorem State.drawn_dd : (s.drawn).dd = s.dd := rfl
@[simp] theorem State.drawn_seq : (s.drawn).seq = s.seq := rfl
@[simp] theorem State.drawn_cmd0 : (s.drawn).cmd0 = s.cmd0 := rfl
@[simp] theorem State.drawn_cmdRest : (s.drawn).cmdRest = s.cmdRest := rfl
@[simp] theorem State.drawn_br : (s.drawn).br = s.br := rfl
@[simp] theorem State.drawn_halOpen : (s.drawn).halOpen = s.halOpen := rfl
@[simp] theorem State.drawn_mem : (s.drawn).mem = s.mem := rfl
@[simp] theorem State.drawn_hist : (s.drawn).hist = s.hist := rfl
@[simp] theorem State.drawn_responses : (s.drawn).responses = s.responses := rfl
@[simp] theorem State.drawn_pending : (s.drawn).pending = s.pending := rfl
@[simp] theorem State.drawn_draws : (s.drawn).draws = s.draws + 1 := rfl

end Sys2Proof.Machine
end

