-- ==== Sys2Proof/Laws/Ops.lean ====
section
/-! SUPPORT. One lemma per shared operation that says everything it can do, to be cited instead of unfolding it. -/

namespace Sys2Proof.Machine

section Sequencing

variable {α β : Type}

@[simp] theorem andThen_next (a : α) (f : α → Result β) : andThen (.next a) f = f a := rfl
@[simp] theorem andThen_fault (r : Fault) (f : α → Result β) : andThen (.fault r) f = .fault r := rfl
@[simp] theorem andThen_refused (r : Refusal) (f : α → Result β) : andThen (.refused r) f = .refused r := rfl

/-- A sequence completes exactly when its first part does and then its second. -/
theorem andThen_eq_next_iff {o : Result α} {f : α → Result β} {b : β} :
    andThen o f = .next b ↔ ∃ a, o = .next a ∧ f a = .next b := by
  cases o <;> simp

/-- An operation other than BEGINTRANS completes exactly when its body does, and leaves the sequencer idle. -/
theorem runOp_eq_next_iff {body : State → Result State} {s t : State} :
    runOp body s = .next t ↔ ∃ u, body (s.withSeq .run) = .next u ∧ t = u.withSeq .idle := by
  rw [runOp, andThen_eq_next_iff]
  simp only [Host.Outcome.next.injEq, eq_comm (a := t)]

/-- The operation with an empty body only passes the sequencer through RUN. -/
theorem runOp_noop (s : State) : runOp (fun s => .next s) s = .next (s.withSeq .idle) := rfl

theorem withSeq_idle_of_idle {s : State} (h : s.seq = .idle) : s.withSeq .idle = s := by
  rw [← h]; rfl

/-- Everything one step can do. -/
theorem acceptNext_eq_next_iff {run : Instr → State → Result State} {s t : State} :
    acceptNext run s = .next t ↔
      (s.pending = [] ∧ t = s) ∨
        ∃ inp rest i, s.pending = inp :: rest ∧ s.seq = .idle ∧ decodeInput inp = .ok i ∧
          run i (s.withPending rest) = .next t := by
  unfold acceptNext
  cases hp : s.pending with
  | nil => simp [eq_comm]
  | cons inp rest =>
    by_cases hq : s.seq = .idle
    · cases hd : decodeInput inp with
      | ok i => simp [hq, hd]
      | error r => simp [hq, hd]
    · simp [hq]

end Sequencing

section Hal

variable {c : Config.Params} {s t : State}

/-- `HalOpen` completes exactly on a closed session (10_state R32). -/
theorem halOpen_eq_next_iff : halOpen c s = .next t ↔ s.halOpen = false ∧
    t = { s with halOpen := true, cmd0 := c.cmdOpenDefault, br := c.brOpenDefault, hist := s.hist ++ [.halOpen] } := by
  unfold halOpen
  split
  · next h => simp [h]
  · next h => exact ⟨fun e => by cases e; exact ⟨by simpa using h, rfl⟩, fun e => by rw [e.2]; rfl⟩

/-- `HalClose` completes exactly on an open session (10_state R33). -/
theorem halClose_eq_next_iff : halClose c s = .next t ↔ s.halOpen = true ∧
    t = { s with
      halOpen := false, cmd0 := c.cmdAfterClose s.draws, br := c.brAfterClose s.draws, draws := s.draws + 1,
      hist := s.hist ++ [.halClose] } := by
  unfold halClose
  split
  · next h => exact ⟨fun e => by cases e; exact ⟨h, rfl⟩, fun e => by rw [e.2]; rfl⟩
  · next h => simp [h]

/-- Opening and marking completes exactly on a closed session. -/
theorem openAndMark_eq_next_iff : openAndMark c s = .next t ↔ s.halOpen = false ∧
    t = { s with
      initialized := true, halOpen := true, cmd0 := c.cmdOpenDefault, br := c.brOpenDefault,
      hist := s.hist ++ [.halOpen] } := by
  rw [openAndMark, andThen_eq_next_iff]
  constructor
  · rintro ⟨u, hu, e⟩
    obtain ⟨h, rfl⟩ := halOpen_eq_next_iff.1 hu
    cases e
    exact ⟨h, rfl⟩
  · rintro ⟨h, rfl⟩
    exact ⟨_, halOpen_eq_next_iff.2 ⟨h, rfl⟩, rfl⟩

/-- The conditional close: nothing where the flag is clear, a close where it is set and the session open. -/
theorem closeIfInitialized_eq_next_iff : closeIfInitialized c s = .next t ↔
    (s.initialized = false ∧ t = s) ∨
      (s.initialized = true ∧ s.halOpen = true ∧
        t = { s with
          halOpen := false, cmd0 := c.cmdAfterClose s.draws, br := c.brAfterClose s.draws, draws := s.draws + 1,
          hist := s.hist ++ [.halClose] }) := by
  unfold closeIfInitialized
  split
  · next h => simp only [h, halClose_eq_next_iff, Bool.true_eq_false, false_and, false_or, true_and]
  · next h => simp only [h, Host.Outcome.next.injEq, Bool.false_eq_true, false_and, or_false, eq_comm (a := t), true_and]

/-- A byte exchange completes exactly on an open session; its answer is the bus oracle's (10_state R35). -/
theorem halWriteRead8_eq_next_iff {tx : Byte} {p : Byte × State} : halWriteRead8 c tx s = .next p ↔
    s.halOpen = true ∧ p = (c.busUnit 8 s.draws 0,
      { s with draws := s.draws + 1, hist := s.hist ++ [.writeRead8 1 [tx] [c.busUnit 8 s.draws 0]] }) := by
  unfold halWriteRead8
  split
  · next h => exact ⟨fun e => by cases e; exact ⟨h, rfl⟩, fun e => by rw [e.2]; rfl⟩
  · next h => simp [h]

/-- A halfword exchange completes exactly on an open session (10_state R35). -/
theorem halWriteRead16_eq_next_iff {tx : Half} {p : Half × State} : halWriteRead16 c tx s = .next p ↔
    s.halOpen = true ∧ p = (c.busUnit 16 s.draws 0,
      { s with draws := s.draws + 1, hist := s.hist ++ [.writeRead16 1 [tx] [c.busUnit 16 s.draws 0]] }) := by
  unfold halWriteRead16
  split
  · next h => exact ⟨fun e => by cases e; exact ⟨h, rfl⟩, fun e => by rw [e.2]; rfl⟩
  · next h => simp [h]

end Hal

section Buffer

/-- The memory after a list of bytes is written from an address on, with the wrap of 20_memory R52. -/
def writeUnits : Memory → Addr → List Byte → Memory
  | m, _, [] => m
  | m, a, r :: rs => writeUnits (m.write a.toNat r) (a + 1#32) rs

/-- A buffer exchange changes memory and history and nothing else (20_memory R65). -/
theorem exchangeUnits_state (rx : List Byte) (a : Addr) (s : State) :
    (exchangeUnits rx a s).2 = { s with
      mem := writeUnits s.mem a rx, hist := s.hist ++ bufferEvents (exchangeUnits rx a s).1 rx a } := by
  induction rx generalizing a s with
  | nil => simp [exchangeUnits, writeUnits, bufferEvents]
  | cons r rs ih =>
    simp only [exchangeUnits, ih]
    simp [memRead, memWrite, writeUnits, bufferEvents, State.withMem, State.record]

theorem wf_writeUnits {m : Memory} (h : m.wf = true) (a : Addr) (rx : List Byte) :
    (writeUnits m a rx).wf = true := by
  induction rx generalizing m a with
  | nil => exact h
  | cons r rs ih => exact ih (Memory.wf_write h a.isLt r) _

/-- A byte outside the buffer is not touched (43_transfer R162). -/
theorem read_writeUnits_outside {m : Memory} {a : Addr} {rx : List Byte} {b : Nat}
    (hfit : a.toNat + rx.length ≤ 2 ^ 32) (hb : b < a.toNat ∨ a.toNat + rx.length ≤ b) :
    (writeUnits m a rx).read b = m.read b := by
  induction rx generalizing m a with
  | nil => rfl
  | cons r rs ih =>
    simp only [List.length_cons] at hfit hb
    have hne : a.toNat ≠ b := by omega
    cases rs with
    | nil => exact Memory.read_write_other hne r
    | cons r' rs' =>
      simp only [List.length_cons] at hfit hb ih
      have ha : (a + 1#32).toNat = a.toNat + 1 := by
        rw [BitVec.toNat_add]
        simp
        omega
      rw [writeUnits, ih (by omega) (by omega), Memory.read_write_other hne]

/-- Unit `i` of a buffer is stored at `a + i` (43_transfer R162). -/
theorem read_writeUnits_inside {m : Memory} (h : m.wf = true) {a : Addr} {rx : List Byte}
    (hfit : a.toNat + rx.length ≤ 2 ^ 32) {i : Nat} (hi : i < rx.length) :
    (writeUnits m a rx).read (a.toNat + i) = rx[i] := by
  induction rx generalizing m a i with
  | nil => simp at hi
  | cons r rs ih =>
    simp only [List.length_cons] at hfit hi
    cases rs with
    | nil =>
      obtain rfl : i = 0 := by simp at hi; exact hi
      exact Memory.read_write_same h _ r
    | cons r' rs' =>
      simp only [List.length_cons] at hfit hi
      have ha : (a + 1#32).toNat = a.toNat + 1 := by
        rw [BitVec.toNat_add]
        simp
        omega
      cases i with
      | zero =>
        rw [writeUnits, read_writeUnits_outside (by simp [ha]; omega) (by simp [ha])]
        exact Memory.read_write_same h _ r
      | succ i =>
        rw [writeUnits, show a.toNat + (i + 1) = (a + 1#32).toNat + i by omega,
          ih (Memory.wf_write h a.isLt r) (by simp [ha]; omega) (by simpa using hi)]
        rfl

end Buffer

end Sys2Proof.Machine
end

