-- ==== Sys2Proof/Laws/PerInstr.lean ====
section
/-! SUPPORT. The per-instruction family TableRow: every instruction's encoding selects its own row of the operation
map (30_encoding R80). -/

namespace Sys2Proof.Laws.TableRow

/-- The encoded word selects the row of the instruction's mnemonic; CALLBACK alone is an event word. -/
def Statement (i : Instr) : Prop :=
  match encode i with
  | .request w => ∃ r ∈ opTable, r.mnemonic = i.mnemonic ∧ r.selects w = true
  | .event _ => i.mnemonic = "CALLBACK"

theorem wordS_selects (mode : BitVec 2) (order : Byte) (freq : Freq) :
    rowBeginTrans.selects (wordS mode order freq 0x3#4) = true := by
  simp only [OpRow.selects, rowBeginTrans, beq_iff_eq, wordS]
  apply BitVec.eq_of_getLsbD_eq
  intro i hi
  interval_cases i <;> simp [placeAt]

theorem wordD_selects8 (data : Byte) : rowXfer8.selects (wordD data 0x5#4) = true := by
  simp only [OpRow.selects, rowXfer8, beq_iff_eq, wordD]
  apply BitVec.eq_of_getLsbD_eq
  intro i hi
  interval_cases i <;> simp [placeAt]

theorem wordD_selects16 (data : Half) : rowXfer16.selects (wordD data 0x6#4) = true := by
  simp only [OpRow.selects, rowXfer16, beq_iff_eq, wordD]
  apply BitVec.eq_of_getLsbD_eq
  intro i hi
  interval_cases i <;> simp [placeAt]

theorem wordB_selects (addr : Addr) (count : BitVec 24) : rowXferBuf.selects (wordB addr count 0x7#4) = true := by
  simp only [OpRow.selects, rowXferBuf, beq_iff_eq, wordB]
  apply BitVec.eq_of_getLsbD_eq
  intro i hi
  interval_cases i <;> simp [placeAt]

theorem wordI_selects8 (id : BitVec 32) : rowUsingInt.selects (wordI id 0x8#4) = true := by
  simp only [OpRow.selects, rowUsingInt, beq_iff_eq, wordI]
  apply BitVec.eq_of_getLsbD_eq
  intro i hi
  interval_cases i <;> simp [placeAt]

theorem wordI_selects9 (id : BitVec 32) : rowNotUsingInt.selects (wordI id 0x9#4) = true := by
  simp only [OpRow.selects, rowNotUsingInt, beq_iff_eq, wordI]
  apply BitVec.eq_of_getLsbD_eq
  intro i hi
  interval_cases i <;> simp [placeAt]

theorem opBegin : Statement .opBegin := ⟨rowBegin, by decide, rfl, by decide⟩
theorem opEnd : Statement .opEnd := ⟨rowEnd, by decide, rfl, by decide⟩
theorem beginTrans (mode : BitVec 2) (order : Byte) (freq : Freq) : Statement (.beginTrans mode order freq) :=
  ⟨rowBeginTrans, by decide, rfl, wordS_selects mode order freq⟩
theorem endTrans : Statement .endTrans := ⟨rowEndTrans, by decide, rfl, by decide⟩
theorem xfer8 (data : Byte) : Statement (.xfer8 data) := ⟨rowXfer8, by decide, rfl, wordD_selects8 data⟩
theorem xfer16 (data : Half) : Statement (.xfer16 data) := ⟨rowXfer16, by decide, rfl, wordD_selects16 data⟩
theorem xferBuf (addr : Addr) (count : BitVec 24) : Statement (.xferBuf addr count) :=
  ⟨rowXferBuf, by decide, rfl, wordB_selects addr count⟩
theorem usingInt (id : BitVec 32) : Statement (.usingInt id) := ⟨rowUsingInt, by decide, rfl, wordI_selects8 id⟩
theorem notUsingInt (id : BitVec 32) : Statement (.notUsingInt id) :=
  ⟨rowNotUsingInt, by decide, rfl, wordI_selects9 id⟩
theorem attachInt : Statement .attachInt := ⟨rowAttachInt, by decide, rfl, by decide⟩
theorem detachInt : Statement .detachInt := ⟨rowDetachInt, by decide, rfl, by decide⟩
theorem callback (evt : EvtWord) : Statement (.callback evt) := rfl

end Sys2Proof.Laws.TableRow
end

