-- ==== Sys2Proof/Tests/Slice0.lean ====
section
/-! SUPPORT. The model's own tests, and for every obligation with hypotheses a witness that meets them. The expected
values are those of 95_test_vectors (T and P numbers) and of the encoding tables of 30_encoding. -/

namespace Sys2Proof.Tests

open Sys2Proof.Machine

/-! ### Small states and an example instance -/

/-- The bytes the example bus answers, unit by unit (T60). -/
def exampleBus (i : Nat) : Nat := [0xAA, 0xBB, 0xCC].getD i 0

/-- The instance of 95_test_vectors' conventions, with a chosen open default and option. -/
def exampleParams (openDefault : Half) (endCloses : Bool) : Config.Params where
  handle := ⟨0⟩
  baseCfg := ⟨0⟩
  cmdAddr := fun i => 2 * i
  brAddr := 1000
  cmdOpenDefault := openDefault
  brOpenDefault := 0xFF#8
  seed := ⟨1#10, 5#32⟩
  calcDiv := calcDivRef 48000000
  rate := fun _ => 0
  endCloses := endCloses
  cmdAfterClose := fun n => BitVec.ofNat 16 (0xABC0 + n)
  brAfterClose := fun n => BitVec.ofNat 8 (0x70 + n)
  busUnit := fun w _ i => BitVec.ofNat w (exampleBus i)

/-- A state with the session open and the flag as given, the registers as in T49. -/
def openState (flag : Bool) : State :=
  { State.reset with clockPolarity := .high, initialized := flag, halOpen := true, cmd0 := 0x0002#16, br := 0x17#8 }

/-- The state a fault-free outcome leaves. -/
def ended : Result State → Option State
  | .next t => some t
  | .fault _ => none
  | .refused _ => none

/-- A state as 95_test_vectors writes it: the cached cells and the flag, the session, the registers. -/
structure View where
  pha : BitVec 1
  pol : BitVec 1
  ord : BitVec 1
  init : Bool
  hal : Bool
  cmd : Half
  br : Byte
  deriving DecidableEq

def viewOf (o : Result State) : Option View :=
  (ended o).map (fun t =>
    ⟨t.clockPhase.bit, t.clockPolarity.bit, t.bitOrder.bit, t.initialized, t.halOpen, t.cmd0, t.br⟩)

def faultOf : Result State → Option Fault
  | .next _ => none
  | .fault r => some r
  | .refused _ => none

def refusalOfOutcome : Result State → Option Refusal
  | .next _ => none
  | .fault _ => none
  | .refused r => some r

/-! ### WellFormed: an ill-formed term for each check (R82) -/

theorem test_wf_rejects_zero_frequency : Instr.wf (.beginTrans 0#2 0x01#8 0#32) = false := by decide
theorem test_wf_accepts_one_hertz : Instr.wf (.beginTrans 0#2 0x01#8 1#32) = true := by decide
theorem test_wf_rejects_wrapping_buffer : Instr.wf (.xferBuf 0xFFFFFFFF#32 2#24) = false := by decide
theorem test_wf_accepts_top_buffer : Instr.wf (.xferBuf 0xFFFFFFFE#32 2#24) = true := by decide

/-! ### Decoding: each constructor's word, written out from R77 and R80 (T67 to T80) -/

theorem test_decode_begin : decodeRequest 0x0000000000000001#64 = .ok .opBegin := by decide
theorem test_decode_end : decodeRequest 0x0000000000000002#64 = .ok .opEnd := by decide
/-- freq 0x000F4240, order 0x01, mode 2 in bits 5:4, op 3. -/
theorem test_decode_begintrans :
    decodeRequest 0b0000000000001111010000100100000000000000000000000000000100100011#64 =
      .ok (.beginTrans 2#2 0x01#8 1000000#32) := by decide
theorem test_decode_endtrans : decodeRequest 0x0000000000000004#64 = .ok .endTrans := by decide
theorem test_decode_xfer8 : decodeRequest 0x0000000000A50005#64 = .ok (.xfer8 0xA5#8) := by decide
theorem test_decode_xfer16 : decodeRequest 0x0000000012340006#64 = .ok (.xfer16 0x1234#16) := by decide
theorem test_decode_xferbuf : decodeRequest 0x2000000000000307#64 = .ok (.xferBuf 0x20000000#32 3#24) := by decide
theorem test_decode_usingint : decodeRequest 0x0000000700000008#64 = .ok (.usingInt 7#32) := by decide
theorem test_decode_notusingint : decodeRequest 0x0000000700000009#64 = .ok (.notUsingInt 7#32) := by decide
theorem test_decode_attachint : decodeRequest 0x000000000000000A#64 = .ok .attachInt := by decide
theorem test_decode_detachint : decodeRequest 0x000000000000000B#64 = .ok .detachInt := by decide
theorem test_decode_callback : decodeInput (.event 0x00000001#32) = .ok (.callback 0x00000001#32) := by decide
theorem test_table_word_callback : decodeTableWord 32 1 = some (.callback 1#32) := by decide
/-- T87: the word decodes, and the value check then refuses it. -/
theorem test_table_word_zero_frequency : decodeTableWord 64 0x103 = some (.beginTrans 0#2 0x01#8 0#32) := by decide
theorem test_encode_begintrans :
    encode (.beginTrans 3#2 0x37#8 11719#32) = .request 0x00002DC700003733#64 := by decide

/-! ### The micro-operations (T15 to T28, T31 to T33, R138) -/

theorem test_pack_all : pack 0x0000#16 1#1 1#1 0x3FF#10 1#1 = 0x1FFF#16 := by decide
theorem test_pack_largest_ratio : pack 0x0000#16 0#1 0#1 0x3FF#10 0#1 = 0x0FFC#16 := by decide
theorem test_pack_keeps_high_bits : pack 0xE000#16 1#1 1#1 0x003#10 1#1 = 0xF00F#16 := by decide
theorem test_pack_mixed : pack 0x0ABC#16 1#1 0#1 0x155#10 1#1 = 0x1FFD#16 := by decide
theorem test_brval_drops_bit_8 : brVal ⟨0#10, 256#32⟩ = 0x00#8 := by decide
theorem test_brval_low_byte : brVal ⟨0#10, 0x12345#32⟩ = 0x45#8 := by decide
theorem test_orddec_fallback : ordDec 0x37#8 = .msbFirst := by decide
theorem test_calcdiv_seed : calcDiv (exampleParams 0 false) 11718#32 = ⟨1#10, 5#32⟩ := by decide

/-! ### The operations (T35 to T66), one step each -/

/-- T47. -/
theorem test_begin_opens :
    viewOf (beginOn (exampleParams 0x0403#16 false) State.reset) =
      some ⟨0#1, 0#1, 0#1, true, true, 0x0403#16, 0xFF#8⟩ := by decide
/-- T52. -/
theorem test_begin_after_end_faults :
    faultOf (beginOn (exampleParams 0 false) (openState false)) = some .openWhileOpen := by decide
/-- T49. -/
theorem test_end_keeps_session :
    viewOf (endOn (exampleParams 0 false) (openState true)) =
      some ⟨0#1, 1#1, 0#1, false, true, 0x0002#16, 0x17#8⟩ := by decide
/-- T50. -/
theorem test_end_closes_with_option :
    (ended (endOn (exampleParams 0 true) (openState true))).map (fun t => (t.initialized, t.halOpen, t.hist)) =
      some (false, false, [.halClose]) := by decide
/-- T43. -/
theorem test_begintrans_kept_bits :
    viewOf (beginTransOn (exampleParams 0xE000#16 false) 3#2 0x00#8 23437#32 State.reset) =
      some ⟨1#1, 1#1, 1#1, true, true, 0xF00F#16, 0x80#8⟩ := by decide
/-- The second request of P1: the session is closed and reopened, and the events stand in step order. -/
theorem test_begintrans_events :
    (ended (beginTransOn (exampleParams 0 false) 2#2 0x01#8 1000000#32 (openState true))).map State.hist =
      some [.halClose, .calcBitrate 1000000#32, .halOpen, .regReadCmd 0x0000#16, .regWriteCmd 0x0002#16,
        .regWriteBr 0x17#8] := by decide
/-- T54. -/
theorem test_endtrans_unchanged : ended (execEndTrans (openState true)) = some (openState true) := by decide
/-- T59 with the example bus: the flag is not consulted. -/
theorem test_xfer8_responds :
    (ended (xfer8On (exampleParams 0 false) 0xA5#8 (openState false))).map (fun t => (t.responses, t.hist)) =
      some ([.byte 0xAA#8], [.writeRead8 1 [0xA5#8] [0xAA#8]]) := by decide
/-- T58. -/
theorem test_xfer8_closed_faults : faultOf (execXfer8 0xA5#8 State.reset) = some .transferNotOpen := by decide
/-- T57 with the example bus. -/
theorem test_xfer16_responds :
    (ended (xfer16On (exampleParams 0 false) 0x1234#16 (openState true))).map (fun t => (t.responses, t.hist)) =
      some ([.half 0x00AA#16], [.writeRead16 1 [0x1234#16] [0x00AA#16]]) := by decide
/-- T60. -/
theorem test_xferbuf_in_place :
    (ended (xferBufOn (exampleParams 0 false) 0x20000000#32 3#24
      { openState true with mem := [(0x20000000, 1), (0x20000001, 2), (0x20000002, 3), (0x20000003, 4)] })).map
        (fun t => (t.mem, t.hist.getLast?)) =
      some ([(0x20000000, 0xAA#8), (0x20000001, 0xBB#8), (0x20000002, 0xCC#8), (0x20000003, 4#8)],
        some (.writeRead8 3 [1#8, 2#8, 3#8] [0xAA#8, 0xBB#8, 0xCC#8])) := by decide
/-- T62: refused before the session is looked at. -/
theorem test_xferbuf_wraps :
    refusalOfOutcome (execXferBuf 0xFFFFFFFF#32 2#24 State.reset) = some .bufferWraps := by decide
/-- T64, T65, T66. -/
theorem test_usingint_unchanged : ended (execUsingInt 7#32 (openState true)) = some (openState true) := by decide
theorem test_notusingint_unchanged : ended (execNotUsingInt 9#32 (openState true)) = some (openState true) := by decide
theorem test_attachint_unchanged : ended (execAttachInt State.reset) = some State.reset := by decide
theorem test_detachint_unchanged : ended (execDetachInt State.reset) = some State.reset := by decide
theorem test_callback_unchanged :
    ended (execCallback 0xFFFFFFFF#32 (openState true)) = some (openState true) := by decide
/-- A write of what an unlisted address reads as removes the cell. -/
theorem test_memory_canonical : Memory.write [(1, 5#8), (2, 6#8)] 1 0x00#8 = [(2, 6#8)] := by decide
/-- T5: the call surface refuses mode 4. -/
theorem test_call_bad_mode :
    issueCall (.beginTransaction ⟨1000000#32, 4, 0x01#8⟩) State.reset = .error .badMode := by decide
theorem test_descriptor_bad_ratio : configureDescriptor 1024 0#32 = .error .badDescriptor := by decide
/-- R131: one answer that does not fit refuses the whole instance. -/
theorem test_instance_bad_answer :
    configureInstance ⟨0, 0#32⟩ (fun freq => if freq = 5#32 then some ⟨1024, 0#32⟩ else none) (exampleParams 0 false) =
      .error .badDescriptor :=
  configureInstance_refuses_answer (freq := 5#32) (d := ⟨1024, 0#32⟩) _ _ rfl (by decide)
/-- R51: entries two apart and the bit-rate register behind them do not overlap; the 501st entry would. -/
theorem test_registers_distinct :
    (exampleParams 0 false).RegistersDistinct 500 ∧ ¬ (exampleParams 0 false).RegistersDistinct 501 := by
  refine ⟨⟨fun i j _ _ h => ?_, fun i h => ?_⟩, fun h => ?_⟩
  · simp only [exampleParams]; omega
  · simp only [exampleParams]; omega
  · simpa [exampleParams] using h.2 500 (by decide)
/-- C2: a rate above the frequency is not closest from below, even with nothing accepted below it. -/
theorem test_closest_below_excludes_above :
    ¬ ({ exampleParams 0 false with calcDiv := fun _ => some ⟨0#10, 0#32⟩, rate := fun _ => 2 } :
      Config.Params).RateClosestBelow (fun _ => True) :=
  fun h => absurd (h 1#32 _ (by decide) rfl).2.1 (by norm_num)
/-- Every table word runs as the very next step: here T67 from reset. -/
theorem test_fetch_word_runs :
    (ended (step (State.reset.withFetchWord 64 1))).map (fun t => (t.initialized, t.pending, t.hist)) =
      some (true, [], [.halOpen]) := by decide

/-! ### Witnesses: a concrete case that meets the hypotheses of each obligation, clause by clause -/

theorem witness_DecodeOfEncode :
    Instr.wf (.beginTrans 3#2 0xFF#8 0xFFFFFFFF#32) = true ∧ Instr.wf (.xferBuf 0xFF000001#32 0xFFFFFF#24) = true := by
  decide
theorem witness_EncodeOfDecode :
    decodeInput (.request 0xFFFFFFFF00000013#64) = .ok (.beginTrans 1#2 0x00#8 0xFFFFFFFF#32) := by decide
theorem witness_DecoderVerdicts :
    (reqOp 0x0#64 = 0x0#4 ∧ (0xC#4 ≤ reqOp 0xC#64) ∧ (0xC#4 ≤ reqOp 0xF#64)) ∧
    (rowBegin ∈ opTable ∧ reqOp 0x11#64 = rowBegin.pattern.setWidth 4 ∧ rowBegin.selects 0x11#64 = false) ∧
    (rowBeginTrans ∈ opTable ∧ rowBeginTrans.selects 0x0000000100000103#64 = true) ∧
    (rowBeginTrans.selects 0x103#64 = true ∧ Instr.wf (.beginTrans 0#2 0x01#8 0#32) = false) ∧
    (rowXferBuf.selects 0xFFFFFFFF00000207#64 = true ∧ Instr.wf (.xferBuf 0xFFFFFFFF#32 2#24) = false) := by decide
theorem witness_RowsDisjoint : rowDetachInt ∈ opTable ∧ rowDetachInt.selects 0xB#64 = true := by decide
theorem witness_CallSettingsChecked :
    4 ≤ (TransferSettings.mk 1#32 4 0#8).dataMode ∧
      (TransferSettings.mk 1#32 3 0#8).dataMode = (3#2 : BitVec 2).toNat := by decide
theorem witness_ConfiguredRatioChecked : 1023 < 1024 ∧ 1024 ≤ 1024 := by decide
theorem witness_StepRunsDecoded :
    (State.reset.present (.request 0x5#64)).pending = .request 0x5#64 :: [] ∧
      (State.reset.present (.request 0x5#64)).seq = .idle ∧ decodeInput (.request 0x5#64) = .ok (.xfer8 0#8) := by decide
theorem witness_StepRefusesRejected :
    (State.reset.present (.request 0xF#64)).pending = .request 0xF#64 :: [] ∧
      (State.reset.present (.request 0xF#64)).seq = .idle ∧ decodeInput (.request 0xF#64) = .error .unknownOp ∧
      decodeInput (.request 0x12#64) = .error .reservedBits ∧ decodeInput (.request 0x3#64) = .error .freqZero ∧
      decodeInput (.request 0xFFFFFFFF00000207#64) = .error .bufferWraps := by decide
theorem witness_StepWaitsWithoutInput : State.reset.pending = [] := rfl
theorem witness_FetchWordRuns :
    State.reset.seq = .idle ∧ decodeTableWord 64 0x100000003 = some (.beginTrans 0#2 0#8 1#32) ∧
      Instr.wf (.beginTrans 0#2 0#8 1#32) = true ∧ decodeTableWord 32 0xFFFFFFFF = some (.callback 0xFFFFFFFF#32) := by
  decide

theorem reset_inv : State.reset.Inv := ⟨by simp [State.SessionSound, State.reset], ⟨rfl, rfl⟩, rfl⟩

theorem constructed (l : List Input) : (State.reset.withPending l).Constructed :=
  ⟨rfl, rfl, rfl, rfl, rfl, rfl, rfl, rfl, rfl, rfl⟩

theorem witness_StepKeepsInv :
    State.reset.Inv ∧ (∃ t, stepOn (exampleParams 0 true) State.reset = .next t) ∧ ∃ t, step State.reset = .next t :=
  ⟨reset_inv, ⟨_, rfl⟩, ⟨_, rfl⟩⟩

/-- The state after one BEGIN from construction is reachable, with the flag set. -/
theorem witness_ReachableSessionPairs (e : Bool) :
    ∃ s, Reachable (exampleParams 0 e) s ∧ (exampleParams 0 e).endCloses = e ∧ s.initialized = true :=
  ⟨_, .step _ _ (.construct _ (constructed [.request 0x1#64])) rfl, rfl, rfl⟩
theorem witness_ReachableFaultList :
    Reachable (exampleParams 0 false) (State.reset.withPending [.request 0x5#64]) ∧
      stepOn (exampleParams 0 false) (State.reset.withPending [.request 0x5#64]) = .fault .transferNotOpen :=
  ⟨.construct _ (constructed _), rfl⟩
theorem witness_StepRefusalList :
    stepOn (exampleParams 0 false) (State.reset.withPending [.request 0x0#64]) = .refused .unknownOp := rfl
theorem witness_EndClosesNeverDoubleOpens :
    (exampleParams 0 true).endCloses = true ∧
      Reachable (exampleParams 0 true) (State.reset.withPending [.request 0x1#64]) :=
  ⟨rfl, .construct _ (constructed _)⟩
theorem witness_OpenWhileOpenExactly :
    (openState false).initialized = false ∧ (openState false).halOpen = true ∧ (1#32 : Freq) ≠ 0 := by decide
theorem witness_BeginOpensOnce :
    (State.reset.initialized = false ∧ State.reset.halOpen = false) ∧
      ((openState true).initialized = true ∧ (openState true).seq = .idle) ∧
      ((openState false).initialized = false ∧ (openState false).halOpen = true) := by decide
theorem witness_EndClearsFlagOnly : State.reset.initialized = false ∧ State.reset.seq = .idle := by decide
theorem witness_EndClosesByOption :
    (openState true).SessionSound ∧ State.reset.SessionSound ∧ (exampleParams 0 false).endCloses = false ∧
      (exampleParams 0 true).endCloses = true ∧ State.reset.initialized = false ∧ (openState true).initialized = true :=
  ⟨fun _ => rfl, by simp [State.SessionSound, State.reset], rfl, rfl, rfl, rfl⟩
theorem witness_EndTransNoEffect : State.reset.seq = .idle := rfl
theorem witness_PackLaws :
    cmdPha 0x0000#16 = cmdPha 0x0002#16 ∧ cmdPol 0x0000#16 = cmdPol 0x0001#16 ∧
      cmdDivr 0x0FFC#16 = cmdDivr 0xFFFF#16 ∧ cmdOrd 0x1000#16 = cmdOrd 0xFFFF#16 := by decide
/-- The reverse order of the four OR terms is one of the orders of the last law. -/
theorem witness_PackLaws_order (f g h k : Half → Half) : [k, h, g, f].Perm [f, g, h, k] :=
  List.reverse_perm [f, g, h, k]
theorem witness_BeginTransCompletes :
    (1#32 : Freq) ≠ 0 ∧ State.reset.initialized = State.reset.halOpen ∧
      (openState true).initialized = (openState true).halOpen := by decide
theorem witness_BeginTransStops :
    (0#32 : Freq) = 0 ∧ (1#32 : Freq) ≠ 0 ∧ (openState false).initialized = false ∧ (openState false).halOpen = true ∧
      (State.reset.withInitialized true).initialized = true ∧ (State.reset.withInitialized true).halOpen = false := by
  decide
theorem witness_RegisterValuesExact :
    (exampleParams 0xE000#16 false).OpenDefaultClean ∧
      ∃ t, execOn (exampleParams 0xE000#16 false) (.beginTrans 3#2 0x00#8 1#32) State.reset = .next t :=
  ⟨by unfold Config.Params.OpenDefaultClean; decide, _, rfl⟩
theorem witness_ModeAndOrderApplied :
    (exampleParams 0x0FFC#16 false).OpenDefaultModeClean ∧
      ∃ t, execOn (exampleParams 0x0FFC#16 false) (.beginTrans 3#2 0x00#8 1#32) State.reset = .next t :=
  ⟨⟨by decide, by decide⟩, _, rfl⟩
theorem witness_BeginTransPostconditions :
    ∃ t, execOn (exampleParams 0 false) (.beginTrans 0#2 0xFF#8 1#32) (openState true) = .next t := ⟨_, rfl⟩
theorem witness_SecondConfigurationOverwrites :
    ((1#2, 0x00#8, 500000#32) : BitVec 2 × Byte × Freq).2.2 ≠ 0 ∧
      ((2#2, 0x01#8, 50000#32) : BitVec 2 × Byte × Freq).2.2 ≠ 0 ∧
      State.reset.initialized = State.reset.halOpen := by decide
theorem witness_ConfigurationIgnoresPriorState :
    (∃ t, execOn (exampleParams 0 false) (.beginTrans 1#2 0x00#8 1#32) State.reset = .next t) ∧
      ∃ t, execOn (exampleParams 0 false) (.beginTrans 1#2 0x00#8 1#32) (openState true) = .next t :=
  ⟨⟨_, rfl⟩, ⟨_, rfl⟩⟩
theorem witness_SeedOnFailedDivider :
    (11718#32 : Freq) ≠ 0 ∧ State.reset.initialized = State.reset.halOpen ∧
      (exampleParams 0 false).calcDiv 11718#32 = none := by decide
theorem witness_MixedSettingBetweenWrites :
    (1#32 : Freq) ≠ 0 ∧ ∃ closed opened,
      btClose (exampleParams 0 false) (btOrder 0x00#8 (btModes 1#2 (openState true))) = .next closed ∧
        btReopen (exampleParams 0 false) (btDivider (exampleParams 0 false) 1#32 closed) = .next opened :=
  ⟨by decide, _, _, rfl, rfl⟩
theorem witness_OpenCloseCounts :
    (∀ r ∈ [((1#2, 0x00#8, 1#32) : BitVec 2 × Byte × Freq)], r.2.2 ≠ 0) ∧
      State.reset.initialized = false ∧ State.reset.halOpen = false := by simp [State.reset]
theorem witness_Xfer8Exchanges : (openState false).halOpen = true := rfl
theorem witness_Xfer16Exchanges : (openState true).halOpen = true := rfl
theorem witness_XferBufExchangesInPlace :
    (openState true).mem.wf = true ∧ (0xFFFFFFFE#32 : Addr).toNat + (2#24 : BitVec 24).toNat ≤ 2 ^ 32 ∧
      (openState true).halOpen = true ∧ OutsideBuffer 0xFFFFFFFE#32 2 0xFFFFFFFD :=
  ⟨rfl, by decide, rfl, .inl (by decide)⟩
theorem witness_XferBufStops :
    2 ^ 32 < (0xFFFFFFFF#32 : Addr).toNat + (2#24 : BitVec 24).toNat ∧
      (0xFFFFFFFF#32 : Addr).toNat + (1#24 : BitVec 24).toNat ≤ 2 ^ 32 ∧ State.reset.halOpen = false := by decide
theorem witness_TransferNeedsSession :
    Instr.mnemonic (.xfer8 0#8) = "XFER8" ∧ Instr.mnemonic (.xfer16 0#16) = "XFER16" ∧
      Instr.mnemonic (.xferBuf 0#32 0#24) = "XFERBUF" ∧ Instr.wf (.xferBuf 0#32 0#24) = true ∧
      State.reset.halOpen = false ∧ (openState false).halOpen = true ∧
      ∃ t, execOn (exampleParams 0 false) (.xferBuf 0#32 3#24) (openState true) = .next t :=
  ⟨rfl, rfl, rfl, rfl, rfl, rfl, _, rfl⟩
theorem witness_NoEndNoStop :
    (openState true).initialized = true ∧ (openState true).halOpen = true ∧
      ∀ i ∈ [Instr.opBegin, .beginTrans 3#2 0x37#8 1#32, .xferBuf 0xFFFFFFFE#32 2#24, .endTrans],
        i.wf = true ∧ i ≠ .opEnd := by decide
theorem witness_HooksNoEffect : (openState true).seq = .idle := rfl
theorem witness_CallbackNoEffect : State.reset.seq = .idle := rfl
theorem witness_CallbackCommutes : (openState false).seq = .idle := rfl
theorem witness_OnlyBeginTransWritesSettings :
    writesSettings .opBegin = false ∧ ∃ t, execOn (exampleParams 0 false) .opBegin State.reset = .next t :=
  ⟨rfl, _, rfl⟩
theorem witness_RegistersFrame :
    drivesSession (.xfer8 0#8) = false ∧ ∃ t, execOn (exampleParams 0 false) (.xfer8 0#8) (openState true) = .next t :=
  ⟨rfl, _, rfl⟩
theorem witness_SettingsOutliveTransaction :
    (∃ t, exec .opEnd (openState true) = .next t) ∧ ∃ t, exec .endTrans (openState true) = .next t :=
  ⟨⟨_, rfl⟩, ⟨_, rfl⟩⟩
theorem witness_MemoryFrame :
    (∃ t, execOn (exampleParams 0 false) (.xferBuf 0x20000000#32 3#24) (openState true) = .next t) ∧
      storedBuffer (.xferBuf 0x20000000#32 3#24) = some (0x20000000#32, 3) ∧
      OutsideBuffer 0x20000000#32 3 0x20000003 ∧ storedBuffer .opBegin = none :=
  ⟨⟨_, rfl⟩, rfl, .inr (by decide), rfl⟩
theorem witness_UnusedRegistersFrame :
    ∃ t, execOn (exampleParams 0 false) (.beginTrans 0#2 0#8 1#32) State.reset = .next t := ⟨_, rfl⟩
theorem witness_HistoryGrows : ∃ t, execOn (exampleParams 0 false) (.xfer16 0#16) (openState true) = .next t :=
  ⟨_, rfl⟩
theorem witness_ReferenceRateNotExceeded :
    0 < 48000000 ∧ ∀ d q, rateRef 48000000 d = some q →
      ({ exampleParams 0 false with rate := fun d => (rateRef 48000000 d).getD 0 } : Config.Params).rate d = q :=
  ⟨by decide, fun d q h => by simp [h]⟩
/-- The inner hypotheses of both premises at a boundary of the table of R138. -/
theorem witness_ReferenceRateClosestBelow :
    (93749#32 : Freq) ≠ 0 ∧
      (withReference 48000000 (exampleParams 0 false)).calcDiv 93749#32 = some ⟨1#10, 128#32⟩ ∧
      (rateRef 48000000 ⟨3#10, 255#32⟩).isSome = true := by decide
theorem witness_ReferenceDomain :
    0 < 48000000 ∧ (11719#32 : Freq) ≠ 0 ∧ calcDivRef 48000000 11719#32 = some ⟨3#10, 255#32⟩ := by decide

/-- The answers at the boundary of R131, at every frequency. -/
def boundaryAnswers (ratio : Nat) (_ : Freq) : Option RawDescriptor := some ⟨ratio, 0#32⟩

theorem witness_InstanceConfigured :
    ((RawDescriptor.mk 1023 0#32).ratio < 1024 ∧ ∀ freq d, boundaryAnswers 1023 freq = some d → d.ratio < 1024) ∧
      1024 ≤ (RawDescriptor.mk 1024 0#32).ratio ∧ boundaryAnswers 1024 0#32 = some ⟨1024, 0#32⟩ :=
  ⟨⟨by decide, fun _ d h => by cases h; decide⟩, by decide, rfl⟩

end Sys2Proof.Tests
end

namespace Sys2Proof.Machine

/-- The accepting case of `acceptNext`, for any meaning `run` of the instructions: it serves `step` and every
`stepOn c`. -/
theorem acceptNext_of_decodeInput_ok (run : Instr → State → Result State) {s : State} {inp : Input}
    {rest : List Input} {i : Instr} (hpending : s.pending = inp :: rest) (hidle : s.seq = .idle)
    (hdecode : decodeInput inp = .ok i) : acceptNext run s = run i (s.withPending rest) := by
  simp only [acceptNext, hpending, if_pos hidle, hdecode]

/-- Settles O8: `step` is `acceptNext` at `exec`, whose accepting case runs the decoded instruction. -/
theorem stepRunsDecoded : Obligations.StepRunsDecoded := by
  intro s inp rest i hpending hidle hdecode
  exact acceptNext_of_decodeInput_ok exec hpending hidle hdecode

end Sys2Proof.Machine

namespace Sys2Proof.Machine

/-! ### What a completed operation leaves, one lemma per operation -/

section Completions

variable {c : Config.Params} {s t : State}

/-- BEGIN completes with the flag set, or by opening a closed session (42_lifecycle R150). -/
theorem beginOn_eq_next_iff : beginOn c s = .next t ↔
    (s.initialized = true ∧ t = { s with seq := .idle }) ∨
      (s.initialized = false ∧ s.halOpen = false ∧
        t = { s with
          initialized := true, halOpen := true, cmd0 := c.cmdOpenDefault, br := c.brOpenDefault,
          hist := s.hist ++ [.halOpen], seq := .idle }) := by
  rw [beginOn, runOp_eq_next_iff]
  cases hflag : s.initialized with
  | true => simp [hflag, State.withSeq]
  | false => simp [hflag, openAndMark_eq_next_iff, State.withSeq, and_assoc]

/-- END completes by clearing the flag alone, or with END_CLOSES by closing an open session first (42_lifecycle
R151). -/
theorem endOn_eq_next_iff : endOn c s = .next t ↔
    ((c.endCloses = false ∨ s.initialized = false) ∧ t = { s with initialized := false, seq := .idle }) ∨
      (c.endCloses = true ∧ s.initialized = true ∧ s.halOpen = true ∧
        t = { s with
          initialized := false, halOpen := false, cmd0 := c.cmdAfterClose s.draws, br := c.brAfterClose s.draws,
          draws := s.draws + 1, hist := s.hist ++ [.halClose], seq := .idle }) := by
  rw [endOn, runOp_eq_next_iff]
  simp only [andThen_eq_next_iff]
  cases hopt : c.endCloses with
  | false => simp [clearInitialized, State.withInitialized, State.withSeq]
  | true =>
    cases hflag : s.initialized <;>
      simp [closeIfInitialized_eq_next_iff, hflag, clearInitialized, State.withInitialized, State.withSeq, and_assoc]

/-- XFER8 completes exactly on an open session (43_transfer R160). -/
theorem xfer8On_eq_next_iff {data : Byte} : xfer8On c data s = .next t ↔ s.halOpen = true ∧
    t = { s with
      responses := s.responses ++ [.byte (c.busUnit 8 s.draws 0)], draws := s.draws + 1,
      hist := s.hist ++ [.writeRead8 1 [data] [c.busUnit 8 s.draws 0]], seq := .idle } := by
  rw [xfer8On, runOp_eq_next_iff]
  simp [andThen_eq_next_iff, halWriteRead8_eq_next_iff, State.respond, State.withSeq, and_assoc]

/-- XFER16 completes exactly on an open session (43_transfer R161). -/
theorem xfer16On_eq_next_iff {data : Half} : xfer16On c data s = .next t ↔ s.halOpen = true ∧
    t = { s with
      responses := s.responses ++ [.half (c.busUnit 16 s.draws 0)], draws := s.draws + 1,
      hist := s.hist ++ [.writeRead16 1 [data] [c.busUnit 16 s.draws 0]], seq := .idle } := by
  rw [xfer16On, runOp_eq_next_iff]
  simp [andThen_eq_next_iff, halWriteRead16_eq_next_iff, State.respond, State.withSeq, and_assoc]

/-- A buffer exchange completes exactly on an open session, with the received units written to memory (10_state
R35). -/
theorem halWriteReadBuffer_eq_next_iff {addr : Addr} {count : Nat} :
    halWriteReadBuffer c addr count s = .next t ↔ s.halOpen = true ∧
      t = (exchangeUnits (busUnits c 8 s.draws count) addr s.drawn).2.record
        (.writeRead8 count (exchangeUnits (busUnits c 8 s.draws count) addr s.drawn).1
          (busUnits c 8 s.draws count)) := by
  unfold halWriteReadBuffer
  split
  · next h => simp [h, eq_comm (a := t)]
  · next h => simp [h]

/-- A completed XFERBUF had a fitting buffer and an open session, and changes memory, history and the draw counter
(43_transfer R162). -/
theorem xferBufOn_of_next {addr : Addr} {count : BitVec 24} (h : xferBufOn c addr count s = .next t) :
    bufferFits addr count = true ∧ s.halOpen = true ∧ ∃ hist, t = { s with
      mem := writeUnits s.mem addr (busUnits c 8 s.draws count.toNat), hist := hist, draws := s.draws + 1,
      seq := .idle } := by
  unfold xferBufOn at h
  split at h
  · next hfit =>
    obtain ⟨u, hu, rfl⟩ := runOp_eq_next_iff.1 h
    obtain ⟨hopen, rfl⟩ := halWriteReadBuffer_eq_next_iff.1 hu
    exact ⟨hfit, hopen, _, by rw [exchangeUnits_state]; rfl⟩
  · cases h

/-- Steps 6 to 9 of BEGINTRANS on the reopened session (40_configure R100). -/
theorem btFinish_eq (c : Config.Params) (s : State) : btFinish c s =
    { s with
      dd := none
      seq := .idle
      cmd0 := pack s.cmd0 s.clockPhase.bit s.clockPolarity.bit (liveDescriptor c s).ratio s.bitOrder.bit
      br := brVal (liveDescriptor c s)
      hist := s.hist ++ [.regReadCmd s.cmd0,
        .regWriteCmd (pack s.cmd0 s.clockPhase.bit s.clockPolarity.bit (liveDescriptor c s).ratio s.bitOrder.bit),
        .regWriteBr (brVal (liveDescriptor c s))] } := by
  simp [btFinish, btUntilCmdWritten, btReadBase, btPack, btWriteCmd, btWriteBr, btReturn, regReadCmd, regWriteCmd,
    regWriteBr, liveDescriptor, State.withSeq, State.withDd, State.withCmd0, State.withBr, State.record]

/-- Steps 1 to 3 of BEGINTRANS: the request is cached, and a session that the flag marks is closed (40_configure
R100). -/
theorem btClose_eq_next_iff {mode : BitVec 2} {order : Byte} :
    btClose c (btOrder order (btModes mode s)) = .next t ↔
      (s.initialized = false ∧ t = { s with
        clockPolarity := (modeDec mode).1, clockPhase := (modeDec mode).2, bitOrder := ordDec order, seq := .s3 }) ∨
      (s.initialized = true ∧ s.halOpen = true ∧ t = { s with
        clockPolarity := (modeDec mode).1, clockPhase := (modeDec mode).2, bitOrder := ordDec order, seq := .s3,
        halOpen := false, cmd0 := c.cmdAfterClose s.draws, br := c.brAfterClose s.draws, draws := s.draws + 1,
        hist := s.hist ++ [.halClose] }) :=
  closeIfInitialized_eq_next_iff

/-- Steps 4 and 5 of BEGINTRANS: they complete exactly on a closed session, with the descriptor live and the open
defaults in the registers (40_configure R100). -/
theorem btReopen_eq_next_iff {freq : Freq} : btReopen c (btDivider c freq s) = .next t ↔ s.halOpen = false ∧
    t = { s with
      dd := some ((c.calcDiv freq).getD c.seed), seq := .s5, initialized := true, halOpen := true,
      cmd0 := c.cmdOpenDefault, br := c.brOpenDefault, hist := s.hist ++ [.calcBitrate freq] ++ [.halOpen] } :=
  openAndMark_eq_next_iff

/-- BEGINTRANS completes exactly with a positive frequency and where flag and session agree, and leaves
`afterBeginTrans` (40_configure R100, R104). -/
theorem beginTransOn_eq_next_iff {mode : BitVec 2} {order : Byte} {freq : Freq} :
    beginTransOn c mode order freq s = .next t ↔ freq ≠ 0 ∧ s.initialized = s.halOpen ∧
      t = afterBeginTrans c mode order freq ((c.calcDiv freq).getD c.seed) s := by
  unfold beginTransOn
  split
  · next hzero => simp [hzero]
  · next hfreq =>
    simp only [andThen_eq_next_iff, btClose_eq_next_iff, btReopen_eq_next_iff, Host.Outcome.next.injEq, ne_eq, hfreq,
      not_false_eq_true, true_and]
    cases hflag : s.initialized <;>
      simp [eq_comm (a := t), eq_comm (b := s.halOpen), btFinish_eq, afterBeginTrans, liveDescriptor, hflag]

end Completions

/-! ### Everything a completed operation can do -/

/-- The ways an operation completes for parameters `c`: `Completion c i s t` says that `i` takes `s` to `t`. The three
operations that drive the session are given exactly; every other one changes memory, history, responses and the draw
counter at most. -/
inductive Completion (c : Config.Params) : Instr → State → State → Prop where
  | beginMarked {s : State} (hflag : s.initialized = true) : Completion c .opBegin s { s with seq := .idle }
  | beginOpened {s : State} (hflag : s.initialized = false) (hopen : s.halOpen = false) :
    Completion c .opBegin s { s with
      initialized := true, halOpen := true, cmd0 := c.cmdOpenDefault, br := c.brOpenDefault,
      hist := s.hist ++ [.halOpen], seq := .idle }
  | endCleared {s : State} (hkeep : c.endCloses = false ∨ s.initialized = false) :
    Completion c .opEnd s { s with initialized := false, seq := .idle }
  | endClosed {s : State} (hopt : c.endCloses = true) (hflag : s.initialized = true) (hopen : s.halOpen = true) :
    Completion c .opEnd s { s with
      initialized := false, halOpen := false, cmd0 := c.cmdAfterClose s.draws, br := c.brAfterClose s.draws,
      draws := s.draws + 1, hist := s.hist ++ [.halClose], seq := .idle }
  | configured {s : State} {mode : BitVec 2} {order : Byte} {freq : Freq} (hfreq : freq ≠ 0)
    (hagree : s.initialized = s.halOpen) :
    Completion c (.beginTrans mode order freq) s
      (afterBeginTrans c mode order freq ((c.calcDiv freq).getD c.seed) s)
  | sessionKept {i : Instr} {s : State} (hi : drivesSession i = false) (m : Memory) (hist : List Event)
    (responses : List Response) (draws : Nat) (hm : s.mem.wf = true → m.wf = true) :
    Completion c i s { s with mem := m, hist := hist, responses := responses, draws := draws, seq := .idle }

/-- Every completed operation is one of the completions. -/
theorem completion_of_execOn {c : Config.Params} {i : Instr} {s t : State} (h : execOn c i s = .next t) :
    Completion c i s t := by
  have noop {i : Instr} (hi : drivesSession i = false) (h : runOp (fun s => .next s) s = .next t) :
      Completion c i s t := by
    cases h
    exact .sessionKept hi _ _ _ _ id
  cases i with
  | opBegin =>
    obtain ⟨hflag, rfl⟩ | ⟨hflag, hopen, rfl⟩ := beginOn_eq_next_iff.1 h
    · exact .beginMarked hflag
    · exact .beginOpened hflag hopen
  | opEnd =>
    obtain ⟨hkeep, rfl⟩ | ⟨hopt, hflag, hopen, rfl⟩ := endOn_eq_next_iff.1 h
    · exact .endCleared hkeep
    · exact .endClosed hopt hflag hopen
  | beginTrans mode order freq =>
    obtain ⟨hfreq, hagree, rfl⟩ := beginTransOn_eq_next_iff.1 h
    exact .configured hfreq hagree
  | xfer8 data =>
    obtain ⟨-, rfl⟩ := xfer8On_eq_next_iff.1 h
    exact .sessionKept rfl _ _ _ _ id
  | xfer16 data =>
    obtain ⟨-, rfl⟩ := xfer16On_eq_next_iff.1 h
    exact .sessionKept rfl _ _ _ _ id
  | xferBuf addr count =>
    obtain ⟨-, -, hist, rfl⟩ := xferBufOn_of_next h
    exact .sessionKept rfl _ _ _ _ fun hm => wf_writeUnits hm _ _
  | endTrans => exact noop rfl h
  | usingInt id => exact noop rfl h
  | notUsingInt id => exact noop rfl h
  | attachInt => exact noop rfl h
  | detachInt => exact noop rfl h
  | callback evt => exact noop rfl h

/-! ### Frames (10_state) -/

/-- Settles O49: BEGIN, END and the operations that keep the session have no cached cell among their updates. -/
theorem onlyBeginTransWritesSettings : Obligations.OnlyBeginTransWritesSettings := by
  intro c i s t h hi
  cases completion_of_execOn h with
  | configured => cases hi
  | beginMarked | beginOpened | endCleared | endClosed | sessionKept => exact ⟨rfl, rfl, rfl⟩

/-- Settles O50: only the completions of BEGIN, END and BEGINTRANS update those cells. -/
theorem registersFrame : Obligations.RegistersFrame := by
  intro c i s t h hi
  cases completion_of_execOn h with
  | sessionKept => exact ⟨rfl, rfl, rfl, rfl, rfl⟩
  | beginMarked | beginOpened | endCleared | endClosed | configured => cases hi

/-- Settles O53: no completion updates the unused entries or the inputs to come. -/
theorem unusedRegistersFrame : Obligations.UnusedRegistersFrame := by
  intro c i s t h
  cases completion_of_execOn h <;> exact ⟨rfl, rfl⟩

/-! ### The invariant (10_state R39, R28, R26) -/

/-- Settles O12: the reset values, read off `State.reset`. -/
theorem resetCells : Obligations.ResetCells :=
  ⟨rfl, rfl, rfl, rfl, rfl, rfl, rfl, rfl⟩

/-- A construction has the flag clear, is quiet and has canonical memory (10_state R40). -/
theorem State.Constructed.inv {s : State} (h : s.Constructed) : s.Inv := by
  obtain ⟨-, -, -, hflag, hdd, hseq, -, -, -, hmem⟩ := h
  exact ⟨fun hset => by simp [hflag] at hset, ⟨hseq, hdd⟩, hmem⟩

/-- Reset with any inputs presented is a construction. -/
theorem reset_withPending_constructed (inputs : List Input) : (State.reset.withPending inputs).Constructed :=
  ⟨rfl, rfl, rfl, rfl, rfl, rfl, rfl, rfl, rfl, rfl⟩

/-- Settles O13: reset is a construction, and every construction meets the invariant. -/
theorem resetMeetsInv : Obligations.ResetMeetsInv :=
  (reset_withPending_constructed []).inv

/-- What holds of a state and is kept by every completed operation is kept by every step, provided it does not speak of
the inputs to come. -/
theorem stepOn_keeps {c : Config.Params} {P : State → Prop}
    (hpending : ∀ s rest, P s → P (s.withPending rest))
    (hexec : ∀ i s t, P s → execOn c i s = .next t → P t) {s t : State} (hs : P s) (h : stepOn c s = .next t) :
    P t := by
  obtain ⟨-, rfl⟩ | ⟨_, rest, i, -, -, -, hrun⟩ := acceptNext_eq_next_iff.1 h
  · exact hs
  · exact hexec i _ t (hpending s rest hs) hrun

/-- Every completed operation keeps the invariant. -/
theorem execOn_keeps_inv {c : Config.Params} {i : Instr} {s t : State} (hs : s.Inv) (h : execOn c i s = .next t) :
    t.Inv := by
  obtain ⟨hsession, ⟨-, hdd⟩, hmem⟩ := hs
  cases completion_of_execOn h with
  | beginMarked => exact ⟨hsession, ⟨rfl, hdd⟩, hmem⟩
  | beginOpened => exact ⟨fun _ => rfl, ⟨rfl, hdd⟩, hmem⟩
  | endCleared | endClosed => exact ⟨fun hset => (Bool.false_ne_true hset).elim, ⟨rfl, hdd⟩, hmem⟩
  | configured => exact ⟨fun _ => rfl, ⟨rfl, rfl⟩, hmem⟩
  | sessionKept _ _ _ _ _ hm => exact ⟨hsession, ⟨rfl, hdd⟩, hm hmem⟩

/-- Every step keeps the invariant. -/
theorem stepOn_keeps_inv {c : Config.Params} {s t : State} (hs : s.Inv) (h : stepOn c s = .next t) : t.Inv :=
  stepOn_keeps (fun _ _ h => h) (fun _ _ _ => execOn_keeps_inv) hs h

/-- Settles O14: each completion keeps the invariant, and taking an input does not touch it; `step` is `stepOn` at
this machine's parameters. -/
theorem stepKeepsInv : Obligations.StepKeepsInv := by
  refine ⟨fun c s t => stepOn_keeps_inv, fun s t hs h => ?_⟩
  rw [step_eq_stepOn] at h
  exact stepOn_keeps_inv hs h

/-! ### The reachable pairs of flag and session (10_state R39) -/

/-- What holds of every construction and is kept by every step holds of every reachable state. -/
theorem Reachable.induct {c : Config.Params} {P : State → Prop} (hinit : ∀ s : State, s.Constructed → P s)
    (hstep : ∀ s t, P s → stepOn c s = .next t → P t) {s : State} (h : Reachable c s) : P s := by
  induction h with
  | construct s h => exact hinit s h
  | step s t _ h ih => exact hstep s t ih h

/-- The invariant holds along every run from a construction. -/
theorem Reachable.inv {c : Config.Params} {s : State} (h : Reachable c s) : s.Inv :=
  h.induct (fun _ => State.Constructed.inv) fun _ _ => stepOn_keeps_inv

/-- With END_CLOSES every completed operation keeps flag and session equal. -/
theorem execOn_keeps_flag_eq_session {c : Config.Params} (hopt : c.endCloses = true) {i : Instr} {s t : State}
    (hs : s.initialized = s.halOpen) (h : execOn c i s = .next t) : t.initialized = t.halOpen := by
  cases completion_of_execOn h with
  | beginMarked => exact hs
  | beginOpened => rfl
  | endCleared hkeep =>
    have hflag : s.initialized = false := by simpa [hopt] using hkeep
    exact hflag.symm.trans hs
  | endClosed => rfl
  | configured => rfl
  | sessionKept => exact hs

/-- The flag implies the session (10_state R39). -/
theorem Reachable.sessionSound {c : Config.Params} {s : State} (h : Reachable c s) : s.SessionSound :=
  h.inv.1

/-- With END_CLOSES flag and session are equal in every reachable state (10_state R39). -/
theorem Reachable.flag_eq_session {c : Config.Params} (hopt : c.endCloses = true) {s : State} (h : Reachable c s) :
    s.initialized = s.halOpen := by
  refine h.induct (P := fun s => s.initialized = s.halOpen) ?_ fun s t =>
    stepOn_keeps (fun _ _ h => h) fun _ _ _ => execOn_keeps_flag_eq_session hopt
  rintro s ⟨-, -, -, hflag, -, -, hopen, -⟩
  exact hflag.trans hopen.symm

/-- A reachable state whose next input decodes to an operation that completes reaches what the operation leaves. -/
theorem Reachable.exec {c : Config.Params} {s t : State} (hs : Reachable c s) {inp : Input} {rest : List Input}
    {i : Instr} (hpending : s.pending = inp :: rest) (hdecode : decodeInput inp = .ok i)
    (hrun : execOn c i (s.withPending rest) = .next t) : Reachable c t := by
  obtain ⟨-, ⟨hidle, -⟩, -⟩ := hs.inv
  exact .step s t hs (by rw [stepOn, acceptNext_of_decodeInput_ok _ hpending hidle hdecode, hrun])

/-- One BEGIN from a construction reaches flag and session both set, with any inputs still to come. -/
theorem exists_reachable_open (c : Config.Params) (inputs : List Input) :
    ∃ s, Reachable c s ∧ s.initialized = true ∧ s.halOpen = true ∧ s.pending = inputs :=
  ⟨_, (Reachable.construct _ (reset_withPending_constructed (encode .opBegin :: inputs))).exec rfl rfl
    (beginOn_eq_next_iff.2 (.inr ⟨rfl, rfl, rfl⟩)), rfl, rfl, rfl⟩

/-- Settles O15: the two invariants give the exclusions; a construction, a BEGIN and an END after it reach the three
pairs. -/
theorem reachableSessionPairs : Obligations.ReachableSessionPairs := by
  have endLeaves {c : Config.Params} (hopt : c.endCloses = false) (s : State) :
      execOn c .opEnd s = .next { s with initialized := false, seq := .idle } :=
    endOn_eq_next_iff.2 (.inl ⟨.inl hopt, rfl⟩)
  refine ⟨fun c s hs => hs.sessionSound, fun c s hs hopt => hs.flag_eq_session hopt, fun c => ?_, fun c => ?_,
    fun c hopt => ?_, fun c s hs hopt hflag => ?_⟩
  · exact ⟨_, .construct _ (reset_withPending_constructed []), rfl, rfl⟩
  · obtain ⟨s, hs, hflag, hopen, -⟩ := exists_reachable_open c []
    exact ⟨s, hs, hflag, hopen⟩
  · obtain ⟨s, hs, -, hopen, hpending⟩ := exists_reachable_open c [encode .opEnd]
    exact ⟨_, hs.exec hpending rfl (endLeaves hopt _), rfl, hopen⟩
  · exact ⟨_, endLeaves hopt s, rfl, hs.sessionSound hflag⟩

/-! ### The mode and order bits of the command register (10_state R36, 40_configure R101 to R103) -/

/-- PACK's mode bits: the old ones OR phase in bit 0 and polarity in bit 1 (40_configure R102). -/
theorem pack_modeBits (old : Half) (pha pol : BitVec 1) (ratio : BitVec 10) (ord : BitVec 1) :
    (pack old pha pol ratio ord).extractLsb' 0 2 =
      old.extractLsb' 0 2 ||| (pha.setWidth 2 ||| pol.setWidth 2 <<< 1) := by
  apply BitVec.eq_of_getLsbD_eq
  intro i hi
  interval_cases i <;> simp [pack]

/-- PACK's order bit: the old one OR the operand (40_configure R102). -/
theorem pack_orderBit (old : Half) (pha pol : BitVec 1) (ratio : BitVec 10) (ord : BitVec 1) :
    (pack old pha pol ratio ord).getLsbD 12 = (old.getLsbD 12 || ord.getLsbD 0) := by
  simp [pack]

/-- The mode table keeps the mode number: polarity is bit 1 and phase bit 0 (40_configure R101). -/
theorem modeDec_bits (mode : BitVec 2) :
    (modeDec mode).2.bit.setWidth 2 ||| (modeDec mode).1.bit.setWidth 2 <<< 1 = mode := by
  revert mode
  decide

/-- The order bit is set exactly for the LSB-first code (40_configure R103). -/
theorem ordDec_bit_iff (order : Byte) : (ordDec order).bit.getLsbD 0 = true ↔ order = 0x00#8 := by
  unfold ordDec
  split
  · next h => exact ⟨fun _ => h, fun _ => rfl⟩
  · next h => exact ⟨fun hbit => (Bool.false_ne_true hbit).elim, fun e => (h e).elim⟩

/-- Settles O33: BEGINTRANS packs onto the open default, whose mode and order bits are clear by the premise. -/
theorem modeAndOrderApplied : Obligations.ModeAndOrderApplied := by
  intro c mode order freq s t hclean h
  obtain ⟨-, -, rfl⟩ := beginTransOn_eq_next_iff.1 h
  obtain ⟨hmode, horder⟩ := hclean
  have hbit : c.cmdOpenDefault.getLsbD 12 = false := by
    simpa using congrArg (fun v : BitVec 1 => v.getLsbD 0) horder
  constructor
  · simp only [afterBeginTrans]
    rw [pack_modeBits, hmode, modeDec_bits, BitVec.zero_or]
  · simp only [afterBeginTrans]
    rw [pack_orderBit, hbit, Bool.false_or, ordDec_bit_iff]

end Sys2Proof.Machine

namespace Sys2Proof.Machine

/-! ### The register accesses (20_memory R54, R55) -/

/-- Settles O29: each access is one cell update and one recorded event, so the four equations hold by unfolding it. -/
theorem registerReadAfterWrite : Obligations.RegisterReadAfterWrite :=
  fun _ => ⟨fun _ => ⟨rfl, rfl⟩, fun _ => ⟨rfl, rfl⟩, rfl, rfl⟩

/-! ### XFERBUF exactly (43_transfer R162, 20_memory R65) -/

section XferBuf

variable {c : Config.Params} {s t : State}

/-- The bytes of a buffer: its first one, and then those of the buffer from the next address on. -/
theorem bytesAt_succ (m : Memory) {a : Addr} {count : Nat} (hfit : a.toNat + (count + 1) ≤ 2 ^ 32) :
    bytesAt m a (count + 1) = m.read a.toNat :: bytesAt m (a + 1#32) count := by
  simp only [bytesAt, List.range_succ_eq_map, List.map_cons, List.map_map, Nat.add_zero, List.cons.injEq, true_and]
  refine List.map_congr_left fun i hi => ?_
  have hlt : i < count := List.mem_range.1 hi
  have ha : (a + 1#32).toNat = a.toNat + 1 := BitVec.toNat_add_of_lt (by simp; omega)
  simp only [Function.comp_apply, ha, Nat.succ_eq_add_one, Nat.add_assoc, Nat.add_comm 1]

/-- A write before a buffer leaves the buffer's bytes alone. -/
theorem bytesAt_write_before (m : Memory) {a : Addr} {b : Nat} (hb : b < a.toNat) (v : Byte) (count : Nat) :
    bytesAt (m.write b v) a count = bytesAt m a count :=
  List.map_congr_left fun i _ => Memory.read_write_other (by omega) v

/-- A buffer exchange that does not wrap transmits the original contents: unit `i` is read before any later address is
written (20_memory R65). -/
theorem exchangeUnits_sent {rx : List Byte} {a : Addr} (hfit : a.toNat + rx.length ≤ 2 ^ 32) (s : State) :
    (exchangeUnits rx a s).1 = bytesAt s.mem a rx.length := by
  induction rx generalizing a s with
  | nil => rfl
  | cons r rs ih =>
    rw [List.length_cons] at hfit ⊢
    rw [bytesAt_succ s.mem hfit, exchangeUnits]
    cases rs with
    | nil => rfl
    | cons r' rs' =>
      rw [List.length_cons] at hfit
      have ha : (a + 1#32).toNat = a.toNat + 1 := BitVec.toNat_add_of_lt (by simp; omega)
      rw [ih (by rw [ha, List.length_cons]; omega)]
      exact congrArg _ (bytesAt_write_before s.mem (by omega) r _)

/-- An exchange of `count` units receives `count` units (43_transfer R163). -/
@[simp] theorem busUnits_length (c : Config.Params) (w n count : Nat) : (busUnits c w n count).length = count := by
  simp [busUnits]

/-- XFERBUF completes exactly with a buffer that does not wrap and an open session: the received units are stored, and
the original contents transmitted (43_transfer R162). -/
theorem xferBufOn_eq_next_iff {addr : Addr} {count : BitVec 24} : xferBufOn c addr count s = .next t ↔
    bufferFits addr count = true ∧ s.halOpen = true ∧ t = { s with
      mem := writeUnits s.mem addr (busUnits c 8 s.draws count.toNat)
      hist := s.hist ++
        bufferEvents (bytesAt s.mem addr count.toNat) (busUnits c 8 s.draws count.toNat) addr ++
        [.writeRead8 count.toNat (bytesAt s.mem addr count.toNat) (busUnits c 8 s.draws count.toNat)]
      draws := s.draws + 1
      seq := .idle } := by
  unfold xferBufOn
  split
  · next hfit =>
    have hsent (u : State) : (exchangeUnits (busUnits c 8 s.draws count.toNat) addr u).1 =
        bytesAt u.mem addr count.toNat := by
      rw [exchangeUnits_sent (by rw [busUnits_length]; exact of_decide_eq_true hfit), busUnits_length]
    simp [runOp_eq_next_iff, halWriteReadBuffer_eq_next_iff, hfit, hsent, exchangeUnits_state, and_assoc,
      State.drawn, State.record, State.withSeq]
  · next hfit => simp [hfit]

/-- A completed XFERBUF leaves every byte outside its buffer (20_memory R50). -/
theorem xferBufOn_keeps_outside {addr : Addr} {count : BitVec 24} (h : xferBufOn c addr count s = .next t) {a : Nat}
    (ha : OutsideBuffer addr count.toNat a) : t.mem.read a = s.mem.read a := by
  obtain ⟨hfit, -, rfl⟩ := xferBufOn_eq_next_iff.1 h
  refine read_writeUnits_outside ?_ ?_ <;> rw [busUnits_length]
  · exact of_decide_eq_true hfit
  · exact ha

end XferBuf

/-! ### Memory, history and responses over all operations (20_memory R50, R59) -/

/-- An operation that neither stores a buffer nor answers keeps memory and responses, and extends the history at its
end. -/
theorem execOn_frame_of_no_transfer {c : Config.Params} {i : Instr} {s t : State} (hstore : storedBuffer i = none)
    (hanswer : responseCount i = 0) (h : execOn c i s = .next t) :
    t.mem = s.mem ∧ t.responses = s.responses ∧ s.hist <+: t.hist := by
  cases i with
  | opBegin =>
    obtain ⟨-, rfl⟩ | ⟨-, -, rfl⟩ := beginOn_eq_next_iff.1 h
    · exact ⟨rfl, rfl, List.prefix_rfl⟩
    · exact ⟨rfl, rfl, List.prefix_append _ _⟩
  | opEnd =>
    obtain ⟨-, rfl⟩ | ⟨-, -, -, rfl⟩ := endOn_eq_next_iff.1 h
    · exact ⟨rfl, rfl, List.prefix_rfl⟩
    · exact ⟨rfl, rfl, List.prefix_append _ _⟩
  | beginTrans mode order freq =>
    obtain ⟨-, -, rfl⟩ := beginTransOn_eq_next_iff.1 h
    exact ⟨rfl, rfl, (List.prefix_append _ _).trans (List.prefix_append _ _)⟩
  | endTrans | usingInt | notUsingInt | attachInt | detachInt | callback =>
    cases h
    exact ⟨rfl, rfl, List.prefix_rfl⟩
  | xfer8 | xfer16 => cases hanswer
  | xferBuf => cases hstore

/-- Settles O52: XFERBUF stores inside its buffer, and no other operation updates the memory. -/
theorem memoryFrame : Obligations.MemoryFrame := by
  intro c i s t h
  cases i with
  | xferBuf addr count => exact fun a ha => xferBufOn_keeps_outside h ha
  | xfer8 data =>
    obtain ⟨-, rfl⟩ := xfer8On_eq_next_iff.1 h
    rfl
  | xfer16 data =>
    obtain ⟨-, rfl⟩ := xfer16On_eq_next_iff.1 h
    rfl
  | opBegin | opEnd | beginTrans | endTrans | usingInt | notUsingInt | attachInt | detachInt | callback =>
    obtain ⟨hmem, -, -⟩ := execOn_frame_of_no_transfer rfl rfl h
    exact hmem

/-- Settles O54: a transfer appends its events, and XFER8 and XFER16 one response each; every other operation appends
events alone. -/
theorem historyGrows : Obligations.HistoryGrows := by
  intro c i s t h
  cases i with
  | xferBuf addr count =>
    obtain ⟨-, -, rfl⟩ := xferBufOn_eq_next_iff.1 h
    exact ⟨(List.prefix_append _ _).trans (List.prefix_append _ _), List.prefix_rfl, rfl⟩
  | xfer8 data =>
    obtain ⟨-, rfl⟩ := xfer8On_eq_next_iff.1 h
    exact ⟨List.prefix_append _ _, List.prefix_append _ _, List.length_append⟩
  | xfer16 data =>
    obtain ⟨-, rfl⟩ := xfer16On_eq_next_iff.1 h
    exact ⟨List.prefix_append _ _, List.prefix_append _ _, List.length_append⟩
  | opBegin | opEnd | beginTrans | endTrans | usingInt | notUsingInt | attachInt | detachInt | callback =>
    obtain ⟨-, hresponses, hhist⟩ := execOn_frame_of_no_transfer rfl rfl h
    exact ⟨hhist, hresponses ▸ List.prefix_rfl, congrArg List.length hresponses⟩

end Sys2Proof.Machine

namespace Sys2Proof

open Sys2Proof.Laws

/-! ### Fields of a request word: placing and extracting (30_encoding R77, R81) -/

section Fields

variable {n : Nat}

theorem getLsbD_placeAt (v : BitVec n) (lo j : Nat) :
    (placeAt v lo).getLsbD j = (decide (j < 64) && decide (lo ≤ j) && v.getLsbD (j - lo)) := by
  by_cases hj : j < 64
  · by_cases hlo : lo ≤ j <;> simp [placeAt, hj, hlo]
  · simp [placeAt, hj]

/-- A field read at the place where it was put. -/
@[simp] theorem extractLsb'_placeAt_same (v : BitVec n) {lo : Nat} (hfit : lo + n ≤ 64) :
    (placeAt v lo).extractLsb' lo n = v := by
  apply BitVec.eq_of_getLsbD_eq
  intro j hj
  have hin : lo + j < 64 := by omega
  simp only [BitVec.getLsbD_extractLsb', getLsbD_placeAt]
  simp [hj, hin]

/-- A field read where a disjoint one was put. -/
@[simp] theorem extractLsb'_placeAt_disjoint (v : BitVec n) {lo start len : Nat}
    (hdisjoint : start + len ≤ lo ∨ lo + n ≤ start) : (placeAt v lo).extractLsb' start len = 0#len := by
  apply BitVec.eq_of_getLsbD_eq
  intro j hj
  simp only [BitVec.getLsbD_extractLsb', getLsbD_placeAt, BitVec.getLsbD_zero]
  rcases hdisjoint with hbelow | habove
  · have hlow : ¬ lo ≤ start + j := by omega
    simp [hlow]
  · have hout : v.getLsbD (start + j - lo) = false := BitVec.getLsbD_of_ge _ _ (by omega)
    simp [hout]

/-- A field put back where it was read is the word under the field's mask. -/
theorem placeAt_extractLsb' (w : ReqWord) (lo n : Nat) :
    placeAt (w.extractLsb' lo n) lo = w &&& placeAt (BitVec.allOnes n) lo := by
  apply BitVec.eq_of_getLsbD_eq
  intro j hj
  simp only [BitVec.getLsbD_and, getLsbD_placeAt, BitVec.getLsbD_extractLsb', BitVec.getLsbD_allOnes]
  by_cases hlo : lo ≤ j
  · simp [hj, hlo, Bool.and_comm]
  · simp [hlo]

end Fields

/-! ### What the encoder's words hold in each field -/

@[simp] theorem reqOp_wordN (op : BitVec 4) : reqOp (wordN op) = op :=
  extractLsb'_placeAt_same op (by decide)

@[simp] theorem reqOp_wordS (mode : BitVec 2) (order : Byte) (freq : Freq) (op : BitVec 4) :
    reqOp (wordS mode order freq op) = op := by
  simp [reqOp, wordS, BitVec.extractLsb'_or]

@[simp] theorem reqMode_wordS (mode : BitVec 2) (order : Byte) (freq : Freq) (op : BitVec 4) :
    reqMode (wordS mode order freq op) = mode := by
  simp [reqMode, wordS, BitVec.extractLsb'_or]

@[simp] theorem reqOrder_wordS (mode : BitVec 2) (order : Byte) (freq : Freq) (op : BitVec 4) :
    reqOrder (wordS mode order freq op) = order := by
  simp [reqOrder, wordS, BitVec.extractLsb'_or]

@[simp] theorem reqFreq_wordS (mode : BitVec 2) (order : Byte) (freq : Freq) (op : BitVec 4) :
    reqFreq (wordS mode order freq op) = freq := by
  simp [reqFreq, wordS, BitVec.extractLsb'_or]

@[simp] theorem reqOp_wordD {n : Nat} (data : BitVec n) (op : BitVec 4) : reqOp (wordD data op) = op := by
  simp [reqOp, wordD, BitVec.extractLsb'_or]

@[simp] theorem reqData8_wordD (data : Byte) (op : BitVec 4) : reqData8 (wordD data op) = data := by
  simp [reqData8, wordD, BitVec.extractLsb'_or]

@[simp] theorem reqData16_wordD (data : Half) (op : BitVec 4) : reqData16 (wordD data op) = data := by
  simp [reqData16, wordD, BitVec.extractLsb'_or]

@[simp] theorem reqOp_wordB (addr : Addr) (count : BitVec 24) (op : BitVec 4) :
    reqOp (wordB addr count op) = op := by
  simp [reqOp, wordB, BitVec.extractLsb'_or]

@[simp] theorem reqAddr_wordB (addr : Addr) (count : BitVec 24) (op : BitVec 4) :
    reqAddr (wordB addr count op) = addr := by
  simp [reqAddr, wordB, BitVec.extractLsb'_or]

@[simp] theorem reqCount_wordB (addr : Addr) (count : BitVec 24) (op : BitVec 4) :
    reqCount (wordB addr count op) = count := by
  simp [reqCount, wordB, BitVec.extractLsb'_or]

@[simp] theorem reqOp_wordI (id : BitVec 32) (op : BitVec 4) : reqOp (wordI id op) = op := by
  simp [reqOp, wordI, BitVec.extractLsb'_or]

@[simp] theorem reqId_wordI (id : BitVec 32) (op : BitVec 4) : reqId (wordI id op) = id := by
  simp [reqId, wordI, BitVec.extractLsb'_or]

/-! ### The operation map (30_encoding R80) -/

theorem OpRow.selects_iff {r : OpRow} {w : ReqWord} : r.selects w = true ↔ w &&& r.mask = r.pattern :=
  beq_iff_eq

theorem checkReserved_of_selects {r : OpRow} {w : ReqWord} (h : r.selects w = true) (i : Instr) :
    checkReserved r w i = .ok i :=
  if_pos h

theorem checkReserved_of_not_selects {r : OpRow} {w : ReqWord} (h : r.selects w = false) (i : Instr) :
    checkReserved r w i = .error .reservedBits :=
  if_neg (Bool.eq_false_iff.1 h)

theorem mask_op_of_mem_opTable : ∀ r ∈ opTable, r.mask.setWidth 4 = BitVec.allOnes 4 := by decide

/-- The rows of the operation map have different `op` fields. -/
theorem eq_of_op_eq : ∀ r ∈ opTable, ∀ r' ∈ opTable, r.pattern.setWidth 4 = r'.pattern.setWidth 4 → r = r' := by
  decide

/-- The rows of the operation map have different mnemonics. -/
theorem eq_of_mnemonic_eq : ∀ r ∈ opTable, ∀ r' ∈ opTable, r.mnemonic = r'.mnemonic → r = r' := by decide

/-- An `op` is a reserved one or a row's. -/
theorem op_reserved_or_of_row : ∀ op : BitVec 4,
    (op = 0x0#4 ∨ 0xC#4 ≤ op) ∨ ∃ r ∈ opTable, op = r.pattern.setWidth 4 := by
  decide

/-- A row's mask fixes the whole `op` field, so a word that selects the row has the row's `op`. -/
theorem reqOp_of_selects {r : OpRow} (hr : r ∈ opTable) {w : ReqWord} (h : r.selects w = true) :
    reqOp w = r.pattern.setWidth 4 := by
  rw [← OpRow.selects_iff.1 h, BitVec.setWidth_and, mask_op_of_mem_opTable r hr, BitVec.and_allOnes, reqOp,
    BitVec.setWidth_eq_extractLsb' (by decide)]

/-- A word that selects a row is the row's pattern and, under the mask of the operand fields, itself. -/
theorem eq_of_selects {r : OpRow} {w : ReqWord} (h : r.selects w = true) {operands : ReqWord}
    (hcover : operands ||| r.mask = BitVec.allOnes 64) : w &&& operands ||| r.pattern = w := by
  rw [← OpRow.selects_iff.1 h, ← BitVec.and_or_distrib_left, hcover, BitVec.and_allOnes]

/-- A row without operands is selected by its pattern alone. -/
theorem pattern_of_selects {r : OpRow} {w : ReqWord} (h : r.selects w = true)
    (hmask : r.mask = BitVec.allOnes 64) : r.pattern = w := by
  rw [← OpRow.selects_iff.1 h, hmask, BitVec.and_allOnes]

/-! ### A selected word is rebuilt from its operands -/

section Rebuild

variable {w : ReqWord}

theorem wordS_of_selects (h : rowBeginTrans.selects w = true) :
    wordS (reqMode w) (reqOrder w) (reqFreq w) 0x3#4 = w := by
  simp only [wordS, reqMode, reqOrder, reqFreq, placeAt_extractLsb', ← BitVec.and_or_distrib_left]
  exact eq_of_selects h (by decide)

theorem wordD_of_selects8 (h : rowXfer8.selects w = true) : wordD (reqData8 w) 0x5#4 = w := by
  rw [wordD, reqData8, placeAt_extractLsb']
  exact eq_of_selects h (by decide)

theorem wordD_of_selects16 (h : rowXfer16.selects w = true) : wordD (reqData16 w) 0x6#4 = w := by
  rw [wordD, reqData16, placeAt_extractLsb']
  exact eq_of_selects h (by decide)

theorem wordB_of_selects (h : rowXferBuf.selects w = true) : wordB (reqAddr w) (reqCount w) 0x7#4 = w := by
  simp only [wordB, reqAddr, reqCount, placeAt_extractLsb', ← BitVec.and_or_distrib_left]
  exact eq_of_selects h (by decide)

theorem wordI_of_selects8 (h : rowUsingInt.selects w = true) : wordI (reqId w) 0x8#4 = w := by
  rw [wordI, reqId, placeAt_extractLsb']
  exact eq_of_selects h (by decide)

theorem wordI_of_selects9 (h : rowNotUsingInt.selects w = true) : wordI (reqId w) 0x9#4 = w := by
  rw [wordI, reqId, placeAt_extractLsb']
  exact eq_of_selects h (by decide)

end Rebuild

/-! ### What the decoder answers (30_encoding R83) -/

theorem decodeFields_of_reserved_op {w : ReqWord} (h : reqOp w = 0x0#4 ∨ 0xC#4 ≤ reqOp w) :
    decodeFields w = .error .unknownOp := by
  unfold decodeFields
  split
  case h_12 => rfl
  all_goals next hop =>
    exfalso
    rcases h with h | h <;> bv_omega

/-- A row's `op`: the decoder checks the row's mask and answers one instruction of the row, which encodes to the word
when the mask matches. -/
theorem decodeFields_of_row {r : OpRow} (hr : r ∈ opTable) {w : ReqWord} (hop : reqOp w = r.pattern.setWidth 4) :
    ∃ i : Instr, i.mnemonic = r.mnemonic ∧ (r.selects w = true → encode i = .request w) ∧
      decodeFields w = checkReserved r w i := by
  simp only [opTable, List.mem_cons, List.not_mem_nil, or_false] at hr
  rcases hr with rfl | rfl | rfl | rfl | rfl | rfl | rfl | rfl | rfl | rfl | rfl
  · exact ⟨.opBegin, rfl, fun h => congrArg _ (pattern_of_selects h rfl), by rw [decodeFields, hop]; rfl⟩
  · exact ⟨.opEnd, rfl, fun h => congrArg _ (pattern_of_selects h rfl), by rw [decodeFields, hop]; rfl⟩
  · exact ⟨.beginTrans _ _ _, rfl, fun h => congrArg _ (wordS_of_selects h), by rw [decodeFields, hop]; rfl⟩
  · exact ⟨.endTrans, rfl, fun h => congrArg _ (pattern_of_selects h rfl), by rw [decodeFields, hop]; rfl⟩
  · exact ⟨.xfer8 _, rfl, fun h => congrArg _ (wordD_of_selects8 h), by rw [decodeFields, hop]; rfl⟩
  · exact ⟨.xfer16 _, rfl, fun h => congrArg _ (wordD_of_selects16 h), by rw [decodeFields, hop]; rfl⟩
  · exact ⟨.xferBuf _ _, rfl, fun h => congrArg _ (wordB_of_selects h), by rw [decodeFields, hop]; rfl⟩
  · exact ⟨.usingInt _, rfl, fun h => congrArg _ (wordI_of_selects8 h), by rw [decodeFields, hop]; rfl⟩
  · exact ⟨.notUsingInt _, rfl, fun h => congrArg _ (wordI_of_selects9 h), by rw [decodeFields, hop]; rfl⟩
  · exact ⟨.attachInt, rfl, fun h => congrArg _ (pattern_of_selects h rfl), by rw [decodeFields, hop]; rfl⟩
  · exact ⟨.detachInt, rfl, fun h => congrArg _ (pattern_of_selects h rfl), by rw [decodeFields, hop]; rfl⟩

/-- What the fields of a word answer encodes to the word. -/
theorem encode_of_decodeFields {w : ReqWord} {i : Instr} (h : decodeFields w = .ok i) : encode i = .request w := by
  rcases op_reserved_or_of_row (reqOp w) with hreserved | ⟨r, hr, hop⟩
  · rw [decodeFields_of_reserved_op hreserved] at h
    cases h
  · obtain ⟨j, -, hencode, hfields⟩ := decodeFields_of_row hr hop
    rw [hfields] at h
    cases hsel : r.selects w with
    | true =>
      rw [checkReserved_of_selects hsel] at h
      cases h
      exact hencode hsel
    | false =>
      rw [checkReserved_of_not_selects hsel] at h
      cases h

/-- The value checks pass exactly the well-formed instructions (R82), unchanged. -/
theorem checkValues_eq_ok_iff {i j : Instr} : checkValues i = .ok j ↔ i = j ∧ i.wf = true := by
  cases i with
  | beginTrans mode order freq => by_cases hf : freq = 0#32 <;> simp [checkValues, Instr.wf, hf]
  | xferBuf addr count => by_cases hb : bufferFits addr count <;> simp [checkValues, Instr.wf, hb]
  | opBegin | opEnd | endTrans | xfer8 | xfer16 | usingInt | notUsingInt | attachInt | detachInt | callback =>
    simp [checkValues, Instr.wf]

/-- The refusals of the value checks, each on the one row it belongs to (R82). -/
theorem checkValues_of_not_wf {i : Instr} (h : i.wf = false) :
    (i.mnemonic = rowBeginTrans.mnemonic ∧ checkValues i = .error .freqZero) ∨
      (i.mnemonic = rowXferBuf.mnemonic ∧ checkValues i = .error .bufferWraps) := by
  cases i with
  | beginTrans mode order freq =>
    have hf : freq = 0 := by simpa [Instr.wf] using h
    exact .inl ⟨rfl, if_pos hf⟩
  | xferBuf addr count => exact .inr ⟨rfl, if_neg (Bool.eq_false_iff.1 h)⟩
  | opBegin | opEnd | endTrans | xfer8 | xfer16 | usingInt | notUsingInt | attachInt | detachInt | callback =>
    cases h

theorem decodeRequest_of_fields {w : ReqWord} {i : Instr} (h : decodeFields w = .ok i) :
    decodeRequest w = checkValues i := by
  rw [decodeRequest, h]

theorem decodeRequest_of_fields_error {w : ReqWord} {r : Reject} (h : decodeFields w = .error r) :
    decodeRequest w = .error r := by
  rw [decodeRequest, h]

/-- The whole decoding accepts exactly the fields' well-formed answer. -/
theorem decodeInput_eq_ok_iff {inp : Input} {i : Instr} :
    decodeInput inp = .ok i ↔ inputFields inp = .ok i ∧ i.wf = true := by
  cases inp with
  | event e =>
    simp only [decodeInput, inputFields, Except.ok.injEq, iff_self_and]
    rintro rfl
    rfl
  | request w =>
    simp only [decodeInput, inputFields]
    cases hfields : decodeFields w with
    | ok j =>
      rw [decodeRequest_of_fields hfields, checkValues_eq_ok_iff, Except.ok.injEq]
      exact and_congr_right (fun hj => hj ▸ Iff.rfl)
    | error r => simp [decodeRequest_of_fields_error hfields]

/-- The fields of an encoded instruction are the instruction, with its operands at any value. -/
theorem inputFields_encode (i : Instr) : inputFields (encode i) = .ok i := by
  cases i with
  | opBegin | opEnd | endTrans | attachInt | detachInt | callback => rfl
  | beginTrans | xfer8 | xfer16 | xferBuf | usingInt | notUsingInt =>
    simp [encode, inputFields, decodeFields, checkReserved_of_selects, TableRow.wordS_selects, TableRow.wordD_selects8,
      TableRow.wordD_selects16, TableRow.wordB_selects, TableRow.wordI_selects8, TableRow.wordI_selects9]

/-! ### The statements about the encoding -/

/-- Settles O1: the fields read back what the encoder placed, and the value checks pass a well-formed instruction. -/
theorem decodeOfEncode : Obligations.DecodeOfEncode := by
  intro i
  exact ⟨inputFields_encode i, fun hwf => decodeInput_eq_ok_iff.2 ⟨inputFields_encode i, hwf⟩⟩

/-- Settles O2: a row's mask fixes every bit outside the operands, so the operands rebuild the word. -/
theorem encodeOfDecode : Obligations.EncodeOfDecode := by
  intro inp i h
  obtain ⟨hfields, hwf⟩ := decodeInput_eq_ok_iff.1 h
  refine ⟨?_, hwf⟩
  cases inp with
  | request w => exact encode_of_decodeFields hfields
  | event e => cases hfields; rfl

/-- Settles O3: the `op` field alone chooses the row, the row's mask decides ReservedBits, and the value checks
decide the rest. -/
theorem decoderVerdicts : Obligations.DecoderVerdicts := by
  intro w
  refine ⟨fun hop => decodeRequest_of_fields_error (decodeFields_of_reserved_op hop), ?_, ?_⟩
  · intro r hr hop hsel
    obtain ⟨i, -, -, hfields⟩ := decodeFields_of_row hr hop
    rw [checkReserved_of_not_selects hsel] at hfields
    exact decodeRequest_of_fields_error hfields
  · intro r hr hsel
    obtain ⟨i, hmnemonic, hencode, hfields⟩ := decodeFields_of_row hr (reqOp_of_selects hr hsel)
    rw [checkReserved_of_selects hsel] at hfields
    rw [decodeRequest_of_fields hfields]
    refine ⟨i, hmnemonic, hencode hsel, fun hwf => checkValues_eq_ok_iff.2 ⟨rfl, hwf⟩, fun hwf => ?_⟩
    rcases checkValues_of_not_wf hwf with ⟨hrow, hverdict⟩ | ⟨hrow, hverdict⟩
    · exact .inl ⟨eq_of_mnemonic_eq r hr _ (by decide) (hmnemonic.symm.trans hrow), hverdict⟩
    · exact .inr ⟨eq_of_mnemonic_eq r hr _ (by decide) (hmnemonic.symm.trans hrow), hverdict⟩

/-- Settles O4: both rows have the word's `op`, and no two rows share one. -/
theorem rowsDisjoint : Obligations.RowsDisjoint := by
  intro w r r' hr hr' hsel hsel'
  exact eq_of_op_eq r hr r' hr' ((reqOp_of_selects hr hsel).symm.trans (reqOp_of_selects hr' hsel'))

/-- Settles O5: each of the sixteen closed words is decoded by evaluation. -/
theorem specWordsDecode : Obligations.SpecWordsDecode := by
  unfold Obligations.SpecWordsDecode
  decide

end Sys2Proof

namespace Sys2Proof.Machine

/-! ### The step on a decoded input -/

/-- The refusing case of `acceptNext`, for any meaning `run` of the instructions. -/
theorem acceptNext_of_decodeInput_error (run : Instr → State → Result State) {s : State} {inp : Input}
    {rest : List Input} {r : Reject} (hpending : s.pending = inp :: rest) (hidle : s.seq = .idle)
    (hdecode : decodeInput inp = .error r) : acceptNext run s = .refused (refusalOf r) := by
  simp only [acceptNext, hpending, if_pos hidle, hdecode]

/-- Settles O9: `acceptNext` refuses what the decoder turns away, and `refusalOf` keeps the name. -/
theorem stepRefusesRejected : Obligations.StepRefusesRejected := by
  intro s inp rest r hpending hidle hdecode
  rw [step, acceptNext_of_decodeInput_error exec hpending hidle hdecode]
  cases r <;> rfl

theorem decodeTableWord_eq_some_iff {nbits w : Nat} {i : Instr} :
    decodeTableWord nbits w = some i ↔ inputFields (inputOfTableWord nbits w) = .ok i := by
  unfold decodeTableWord
  cases inputFields (inputOfTableWord nbits w) <;> simp

/-- Settles O11: the placed input is the first one pending, and a well-formed table word decodes to its instruction;
taking that input gives the state before it was placed. -/
theorem fetchWordRuns : Obligations.FetchWordRuns := by
  intro s nbits w i hidle htable hwf
  have hdecode : decodeInput (inputOfTableWord nbits w) = .ok i :=
    decodeInput_eq_ok_iff.2 ⟨decodeTableWord_eq_some_iff.1 htable, hwf⟩
  exact stepRunsDecoded (s.withFetchWord nbits w) _ s.pending i rfl hidle hdecode

end Sys2Proof.Machine

namespace Sys2Proof.Machine

/-! ### PACK by fields (40_configure R102, R106) -/

section Pack

variable (old : Half) (pha pol : BitVec 1) (ratio : BitVec 10) (ord : BitVec 1)

@[simp] theorem cmdPha_pack : cmdPha (pack old pha pol ratio ord) = cmdPha old ||| pha := by
  apply BitVec.eq_of_getLsbD_eq
  intro i hi
  interval_cases i
  simp [cmdPha, pack]

@[simp] theorem cmdPol_pack : cmdPol (pack old pha pol ratio ord) = cmdPol old ||| pol := by
  apply BitVec.eq_of_getLsbD_eq
  intro i hi
  interval_cases i
  simp [cmdPol, pack]

@[simp] theorem cmdDivr_pack : cmdDivr (pack old pha pol ratio ord) = cmdDivr old ||| ratio := by
  apply BitVec.eq_of_getLsbD_eq
  intro i hi
  interval_cases i <;> simp [cmdDivr, pack]

@[simp] theorem cmdOrd_pack : cmdOrd (pack old pha pol ratio ord) = cmdOrd old ||| ord := by
  apply BitVec.eq_of_getLsbD_eq
  intro i hi
  interval_cases i
  simp [cmdOrd, pack]

@[simp] theorem cmdKept_pack : cmdKept (pack old pha pol ratio ord) = cmdKept old := by
  apply BitVec.eq_of_getLsbD_eq
  intro i hi
  interval_cases i <;> simp [cmdKept, pack]

/-- PACK is the old value OR a value made of the operands alone. -/
theorem pack_eq_or : pack old pha pol ratio ord = old ||| pack 0 pha pol ratio ord := by
  simp [pack, BitVec.setWidth_or, BitVec.or_assoc]

/-- An OR clears no bit of the old value (40_configure R106). -/
theorem pack_and_old : pack old pha pol ratio ord &&& old = old := by
  rw [pack_eq_or]
  apply BitVec.eq_of_getLsbD_eq
  intro i _
  simp +contextual

/-- Two PACKs in a row are one PACK of the operands' ORs. -/
theorem pack_pack (pha' pol' : BitVec 1) (ratio' : BitVec 10) (ord' : BitVec 1) :
    pack (pack old pha pol ratio ord) pha' pol' ratio' ord' =
      pack old (pha ||| pha') (pol ||| pol') (ratio ||| ratio') (ord ||| ord') := by
  rw [pack_eq_or (pack old pha pol ratio ord), pack_eq_or old pha, pack_eq_or old (pha ||| pha')]
  simp only [pack, BitVec.setWidth_or, BitVec.shiftLeft_or_distrib]
  ac_rfl

end Pack

/-- Settles O26: one lemma per field. -/
theorem packBitByBit : Obligations.PackBitByBit :=
  fun _ _ _ _ _ => ⟨cmdPha_pack .., cmdPol_pack .., cmdDivr_pack .., cmdOrd_pack .., cmdKept_pack ..⟩

/-- A map of `CMD[0]` that is one PACK with fixed operands. -/
def IsPack (f : Half → Half) : Prop := ∃ pha pol ratio ord, f = fun v => pack v pha pol ratio ord

/-- PACKs of any operands may be done in either order. -/
theorem IsPack.comm {f g : Half → Half} (hf : IsPack f) (hg : IsPack g) (v : Half) : g (f v) = f (g v) := by
  obtain ⟨pha, pol, ratio, ord, rfl⟩ := hf
  obtain ⟨pha', pol', ratio', ord', rfl⟩ := hg
  simp only [pack_pack, BitVec.or_comm]

/-- A list of PACKs gives the same value in every order (40_configure R106). -/
theorem foldl_packs_of_perm {fs gs : List (Half → Half)} (hperm : fs.Perm gs) (hgs : ∀ f ∈ gs, IsPack f) (old : Half) :
    fs.foldl (fun v f => f v) old = gs.foldl (fun v f => f v) old :=
  hperm.foldl_eq' (fun f hf g hg v => (hgs f (hperm.subset hf)).comm (hgs g (hperm.subset hg)) v) old

/-- The four OR terms of PACK, done one by one. -/
theorem pack_termwise (old : Half) (pha pol : BitVec 1) (ratio : BitVec 10) (ord : BitVec 1) :
    pack (pack (pack (pack old pha 0 0 0) 0 pol 0 0) 0 0 ratio 0) 0 0 0 ord = pack old pha pol ratio ord := by
  simp only [pack_pack, BitVec.ofNat_eq_ofNat, BitVec.or_zero, BitVec.zero_or]

/-- Settles O27: PACK is an OR onto the old value, two PACKs are one, each field depends on its own operand and old
field alone, and the single terms commute. -/
theorem packLaws : Obligations.PackLaws := by
  intro old old' pha pol pha' pol' ratio ratio' ord ord'
  refine ⟨pack_and_old .., ?_, pack_pack .., cmdKept_pack .., fun h => ?_, fun h => ?_, fun h => ?_, fun h => ?_,
    fun order hperm => ?_⟩
  · simp only [pack_pack, BitVec.or_self]
  · rw [cmdPha_pack, cmdPha_pack, h]
  · rw [cmdPol_pack, cmdPol_pack, h]
  · rw [cmdDivr_pack, cmdDivr_pack, h]
  · rw [cmdOrd_pack, cmdOrd_pack, h]
  · rw [foldl_packs_of_perm hperm]
    · exact pack_termwise old pha pol ratio ord
    · simp only [List.forall_mem_cons]
      exact ⟨⟨_, _, _, _, rfl⟩, ⟨_, _, _, _, rfl⟩, ⟨_, _, _, _, rfl⟩, ⟨_, _, _, _, rfl⟩, List.forall_mem_nil _⟩

/-! ### What a completed BEGINTRANS leaves (40_configure R104, R107, R108) -/

/-- The divider's descriptor in the spelling of the completion lemmas (41_divider R133). -/
theorem calcDiv_eq_getD (c : Config.Params) (freq : Freq) : calcDiv c freq = (c.calcDiv freq).getD c.seed := by
  unfold calcDiv
  cases c.calcDiv freq <;> rfl

/-- BEGINTRANS completes wherever the frequency is positive and the flag and the session agree. -/
theorem beginTransOn_of_agree {c : Config.Params} {mode : BitVec 2} {order : Byte} {freq : Freq} {s : State}
    (hfreq : freq ≠ 0) (hagree : s.initialized = s.halOpen) :
    beginTransOn c mode order freq s = .next (afterBeginTrans c mode order freq (calcDiv c freq) s) :=
  beginTransOn_eq_next_iff.2 ⟨hfreq, hagree, by rw [calcDiv_eq_getD]⟩

/-- The completion of BEGINTRANS for a request given as a triple. -/
theorem execOn_settingsRequest_of_agree {c : Config.Params} {r : BitVec 2 × Byte × Freq} {s : State}
    (hfreq : r.2.2 ≠ 0) (hagree : s.initialized = s.halOpen) :
    execOn c (settingsRequest r) s = .next (afterBeginTrans c r.1 r.2.1 r.2.2 (calcDiv c r.2.2) s) :=
  beginTransOn_of_agree hfreq hagree

/-- Settles O30: the completion for every `c`, and `exec` is `execOn` at this machine's parameters. -/
theorem beginTransCompletes : Obligations.BeginTransCompletes := by
  refine ⟨fun c mode order freq s => beginTransOn_of_agree, fun mode order freq s hfreq hagree => ?_⟩
  rw [exec_eq_execOn]
  exact beginTransOn_of_agree hfreq hagree

/-- A clean open default has all four fields clear (10_state R36). -/
theorem fields_of_openDefaultClean {c : Config.Params} (h : c.OpenDefaultClean) :
    cmdPha c.cmdOpenDefault = 0 ∧ cmdPol c.cmdOpenDefault = 0 ∧ cmdDivr c.cmdOpenDefault = 0 ∧
      cmdOrd c.cmdOpenDefault = 0 := by
  have inside {start len : Nat} (hin : start + len ≤ 13) : c.cmdOpenDefault.extractLsb' start len = 0 := by
    rw [← BitVec.extractLsb'_extractLsb'_of_le hin, h, BitVec.extractLsb'_zero, BitVec.ofNat_eq_ofNat]
  exact ⟨inside (by decide), inside (by decide), inside (by decide), inside (by decide)⟩

/-- BRVAL is bits 7:0 of the base (40_configure R105). -/
theorem brVal_eq_extractLsb' (dd : Descriptor) : brVal dd = dd.base.extractLsb' 0 8 :=
  BitVec.setWidth_eq_extractLsb' (by decide)

/-- Settles O32: the command register is PACK onto the open default, so each field is the default's OR the request's. -/
theorem registerValuesExact : Obligations.RegisterValuesExact := by
  intro c mode order freq s t h
  obtain ⟨-, -, rfl⟩ := beginTransOn_eq_next_iff.1 h
  refine ⟨_, rfl, cmdPha_pack .., cmdPol_pack .., cmdDivr_pack .., cmdOrd_pack .., cmdKept_pack ..,
    brVal_eq_extractLsb' _, fun hclean => ?_⟩
  obtain ⟨hpha, hpol, hdivr, hord⟩ := fields_of_openDefaultClean hclean
  simp [afterBeginTrans, hpha, hpol, hdivr, hord]

/-- Settles O34: the cells of `afterBeginTrans`. -/
theorem beginTransPostconditions : Obligations.BeginTransPostconditions := by
  intro c mode order freq s t h
  obtain ⟨-, -, rfl⟩ := beginTransOn_eq_next_iff.1 h
  exact ⟨rfl, rfl, rfl, rfl⟩

/-- Settles O36: `afterBeginTrans` takes these cells from the request and the parameters alone. -/
theorem configurationIgnoresPriorState : Obligations.ConfigurationIgnoresPriorState := by
  intro c mode order freq s s' t t' h h'
  obtain ⟨-, -, rfl⟩ := beginTransOn_eq_next_iff.1 h
  obtain ⟨-, -, rfl⟩ := beginTransOn_eq_next_iff.1 h'
  exact ⟨rfl, rfl, rfl, rfl, rfl⟩

/-- Settles O35: the first request leaves flag and session both set, so the second one completes, and what it leaves
does not depend on the first. -/
theorem secondConfigurationOverwrites : Obligations.SecondConfigurationOverwrites := by
  intro c first second s hfirst hsecond hagree
  have hrun₁ := execOn_settingsRequest_of_agree (c := c) hfirst hagree
  have hrun₂ := execOn_settingsRequest_of_agree (c := c) hsecond
    (s := afterBeginTrans c first.1 first.2.1 first.2.2 (calcDiv c first.2.2) s) rfl
  have halone := execOn_settingsRequest_of_agree (c := c) hsecond hagree
  obtain ⟨hcmd, hbr, hcached, -, -⟩ := configurationIgnoresPriorState c _ _ _ _ _ _ _ hrun₂ halone
  exact ⟨_, _, _, hrun₁, hrun₂, halone, hcmd, hbr, hcached, rfl, rfl⟩

/-! ### Counting the session's events (40_configure R109) -/

section Counts

variable (c : Config.Params) (mode : BitVec 2) (order : Byte) (freq : Freq) (d : Descriptor) (s : State)

/-- BEGINTRANS records one Open. -/
theorem opens_afterBeginTrans : (afterBeginTrans c mode order freq d s).opens = s.opens + 1 := by
  cases hflag : s.initialized <;> simp [afterBeginTrans, State.opens, hflag]

/-- BEGINTRANS with the flag set records one Close. -/
theorem closes_afterBeginTrans (hflag : s.initialized = true) :
    (afterBeginTrans c mode order freq d s).closes = s.closes + 1 := by
  simp [afterBeginTrans, State.closes, hflag]

end Counts

/-- Requests one after another from flag and session both set: each records one Close and one Open. -/
theorem runOn_requests_counts {c : Config.Params} {requests : List (BitVec 2 × Byte × Freq)} {s : State}
    (hfreq : ∀ r ∈ requests, r.2.2 ≠ 0) (hflag : s.initialized = true) (hopen : s.halOpen = true) :
    ∃ t, runOn c (requests.map settingsRequest) s = .next t ∧
      t.closes = s.closes + requests.length ∧ t.opens = s.opens + requests.length := by
  induction requests generalizing s with
  | nil => exact ⟨s, rfl, rfl, rfl⟩
  | cons r rs ih =>
    obtain ⟨hr, hrs⟩ := List.forall_mem_cons.1 hfreq
    have hrun := execOn_settingsRequest_of_agree (c := c) hr (hflag.trans hopen.symm)
    obtain ⟨t, ht, hcloses, hopens⟩ := ih (s := afterBeginTrans c r.1 r.2.1 r.2.2 (calcDiv c r.2.2) s) hrs rfl rfl
    rw [closes_afterBeginTrans _ _ _ _ _ _ hflag] at hcloses
    rw [opens_afterBeginTrans] at hopens
    refine ⟨t, ?_, ?_, ?_⟩
    · rw [List.map_cons, runOn, hrun, andThen_next, ht]
    · rw [hcloses, List.length_cons, Nat.add_right_comm, Nat.add_assoc]
    · rw [hopens, List.length_cons, Nat.add_right_comm, Nat.add_assoc]

/-- BEGIN on a closed session opens it, marks it and records one Open (42_lifecycle R150). -/
theorem beginOn_counts (c : Config.Params) {s : State} (hflag : s.initialized = false) (hclosed : s.halOpen = false) :
    ∃ t, beginOn c s = .next t ∧ t.initialized = true ∧ t.halOpen = true ∧ t.closes = s.closes ∧
      t.opens = s.opens + 1 :=
  ⟨_, beginOn_eq_next_iff.2 (.inr ⟨hflag, hclosed, rfl⟩), rfl, rfl, by simp [State.closes], by simp [State.opens]⟩

/-- Settles O39: BEGIN opens once and sets the flag, and the requests after it close and open once each. -/
theorem openCloseCounts : Obligations.OpenCloseCounts := by
  intro c requests s hfreq hflag hclosed
  obtain ⟨u, hbegin, hmarked, hopen, hcloses, hopens⟩ := beginOn_counts c hflag hclosed
  obtain ⟨t, hrun, hcloses', hopens'⟩ := runOn_requests_counts (c := c) hfreq hmarked hopen
  refine ⟨t, ?_, by omega, by omega⟩
  rw [runOn, execOn, hbegin, andThen_next, hrun]

/-! ### Where BEGINTRANS stops (40_configure R100, 60_exceptions R185, R186) -/

section Stops

variable {c : Config.Params} {mode : BitVec 2} {order : Byte} {freq : Freq} {s : State}

theorem beginTransOn_of_freq_zero : beginTransOn c mode order 0 s = .refused .freqZero :=
  if_pos rfl

/-- A reopen of an open session is outside the contract of `HalOpen` (10_state R31). -/
theorem btReopen_of_open (hopen : s.halOpen = true) : btReopen c (btDivider c freq s) = .fault .openWhileOpen := by
  have hfault : halOpen c ((btDivider c freq s).withSeq .s5) = .fault .openWhileOpen := if_pos hopen
  rw [btReopen, openAndMark, hfault, andThen_fault]

/-- A close of a closed session is outside the contract of `HalClose` (10_state R31). -/
theorem btClose_of_closed (hflag : s.initialized = true) (hclosed : s.halOpen = false) :
    btClose c s = .fault .closeWhileClosed := by
  simp [btClose, closeIfInitialized, halClose, hflag, hclosed]

/-- With the flag clear step 3 closes nothing, and step 5 meets the open session. -/
theorem beginTransOn_of_open_unmarked (hfreq : freq ≠ 0) (hflag : s.initialized = false) (hopen : s.halOpen = true) :
    beginTransOn c mode order freq s = .fault .openWhileOpen := by
  have hclose := (btClose_eq_next_iff (c := c) (mode := mode) (order := order)).2 (.inl ⟨hflag, rfl⟩)
  rw [beginTransOn, if_neg hfreq, hclose, andThen_next, btReopen_of_open, andThen_fault]
  exact hopen

/-- With the flag set step 3 closes, whatever the session is. -/
theorem beginTransOn_of_closed_marked (hfreq : freq ≠ 0) (hflag : s.initialized = true) (hclosed : s.halOpen = false) :
    beginTransOn c mode order freq s = .fault .closeWhileClosed := by
  have hclose : btClose c (btOrder order (btModes mode s)) = .fault .closeWhileClosed := btClose_of_closed hflag hclosed
  rw [beginTransOn, if_neg hfreq, hclose, andThen_fault]

end Stops

/-- Settles O31: the three stops, at this machine's parameters. -/
theorem beginTransStops : Obligations.BeginTransStops := by
  intro mode order freq s
  rw [exec_eq_execOn]
  refine ⟨fun hzero => ?_, beginTransOn_of_open_unmarked, beginTransOn_of_closed_marked⟩
  subst hzero
  exact beginTransOn_of_freq_zero

/-! ### The call surface and the pure micro-operations (30_encoding R84, 40_configure R101, R103, R105) -/

/-- Settles O6: the check on the mode decides the call, and a mode below 4 is the number of its two bits. -/
theorem callSettingsChecked : Obligations.CallSettingsChecked := by
  refine fun t => ⟨fun hbad => if_neg (Nat.not_lt.2 hbad), fun mode hmode => ?_, rfl⟩
  have hlt : t.dataMode < 4 := hmode ▸ mode.isLt
  rw [callInstr, settingsInstr, if_pos hlt, hmode, BitVec.ofNat_toNat, BitVec.setWidth_eq]

/-- Settles O24: the table's four rows, and its bits at each of the four modes. -/
theorem modeTable : Obligations.ModeTable :=
  ⟨rfl, rfl, rfl, rfl, by decide⟩

/-- Settles O25: ORDDEC compares the code with 0x00. -/
theorem orderMapping : Obligations.OrderMapping := by
  refine fun order => ⟨rfl, ?_⟩
  unfold ordDec lsbFirstCode
  split <;> rfl

/-- Settles O28: BRVAL truncates the base to eight bits. -/
theorem bitRateValue : Obligations.BitRateValue :=
  fun dd => ⟨brVal_eq_extractLsb' dd, BitVec.toNat_setWidth 8 dd.base⟩

end Sys2Proof.Machine

namespace Sys2Proof.Machine

/-! ### Configuration and the failed divider (41_divider R131, R133) -/

/-- Settles O7: the check of one proposal compares its ratio with 1024, and narrowing keeps a fitting one. -/
theorem configuredRatioChecked : Obligations.ConfiguredRatioChecked := by
  refine fun ratio base => ⟨fun hfits => ?_, fun hbad => ?_⟩
  · refine ⟨RawDescriptor.narrow ⟨ratio, base⟩, ?_, Nat.mod_eq_of_lt hfits, rfl⟩
    rw [configureDescriptor_eq, if_pos hfits]
  · rw [configureDescriptor_eq, if_neg (Nat.not_lt.2 hbad)]

/-- Narrowing an answer that fits and proposing it again gives it back. -/
theorem map_rawOf_map_narrow {answer : Option RawDescriptor} (h : ∀ d, answer = some d → d.ratio < 1024) :
    (answer.map RawDescriptor.narrow).map rawOf = answer := by
  cases answer with
  | none => rfl
  | some d => exact congrArg some (rawOf_narrow (h d rfl))

/-- Proposing an answer and narrowing it gives it back. -/
theorem map_narrow_map_rawOf (answer : Option Descriptor) :
    (answer.map rawOf).map RawDescriptor.narrow = answer := by
  cases answer with
  | none => rfl
  | some d => exact congrArg some (narrow_rawOf d)

/-- Settles O59: narrowing fitting values and proposing them again gives them back, and so does proposing the values
of an instance and narrowing them. -/
theorem instanceConfigured : Obligations.InstanceConfigured := by
  refine ⟨fun seed answers rest => ⟨fun ⟨hseed, hanswers⟩ => ?_, configureInstance_refuses_seed answers rest,
    fun freq d => configureInstance_refuses_answer seed rest⟩, fun c => ?_⟩
  · refine ⟨_, configureInstance_accepts rest hseed hanswers, rawOf_narrow hseed, fun freq => ?_, rfl⟩
    exact map_rawOf_map_narrow (hanswers freq)
  · have hanswers (freq : Freq) (d : RawDescriptor) (hd : (c.calcDiv freq).map rawOf = some d) : d.ratio < 1024 := by
      obtain ⟨d', -, rfl⟩ := Option.map_eq_some_iff.1 hd
      exact rawOf_fits d'
    rw [configureInstance_accepts c (rawOf_fits c.seed) hanswers]
    simp only [narrow_rawOf, map_narrow_map_rawOf]

/-- Settles O37: BEGINTRANS completes, and the descriptor it writes is the seed. -/
theorem seedOnFailedDivider : Obligations.SeedOnFailedDivider := by
  intro c mode order freq s hfreq hagree hfailed
  have hseed : calcDiv c freq = c.seed := by rw [calcDiv_eq_getD, hfailed, Option.getD_none]
  refine ⟨_, beginTransOn_of_agree hfreq hagree, ?_⟩
  rw [hseed]
  exact ⟨cmdDivr_pack .., brVal_eq_extractLsb' _⟩

/-! ### The reference divider (41_divider R135 to R138) -/

/-- Settles O58: the rows are computed. -/
theorem referenceTable : Obligations.ReferenceTable := by
  unfold Obligations.ReferenceTable
  decide

/-- `ceil_div` is the least factor that reaches `a` (00_scope R14). -/
theorem ceilDivNat_le_iff {a b k : Nat} (hb : 0 < b) : ceilDivNat a b ≤ k ↔ a ≤ b * k :=
  ceilDiv_le_iff_le_mul hb

theorem le_mul_ceilDivNat {a b : Nat} (hb : 0 < b) : a ≤ b * ceilDivNat a b :=
  (ceilDivNat_le_iff hb).1 le_rfl

theorem ceilDivNat_pos {a b : Nat} (ha : 0 < a) (hb : 0 < b) : 0 < ceilDivNat a b :=
  Nat.pos_of_mul_pos_left (ha.trans_le (le_mul_ceilDivNat hb))

theorem freq_toNat_pos {freq : Freq} (h : freq ≠ 0) : 0 < freq.toNat :=
  Nat.pos_of_ne_zero fun hzero => h (BitVec.eq_of_toNat_eq hzero)

theorem brVal_toNat_of_le {d : Descriptor} (h : d.base.toNat ≤ 255) : (brVal d).toNat = d.base.toNat := by
  rw [(bitRateValue d).2]
  omega

/-- The divisor in units of `2^(ratio+1)`, as the algorithm counts them. -/
theorem refDivisor_eq (d : Descriptor) : refDivisor d = 2 ^ (d.ratio.toNat + 1) * ((brVal d).toNat + 1) := by
  rw [refDivisor, brVal, pow_succ]
  ring

theorem refDivisor_pos (d : Descriptor) : 0 < refDivisor d := by
  rw [refDivisor_eq]
  positivity

/-- In a rising list, the first hit of `findSome?` is the least one. -/
theorem findSome?_eq_some_least {α : Type} {f : Nat → Option α} {l : List Nat} {a : α}
    (hsorted : l.Pairwise (· < ·)) (h : l.findSome? f = some a) :
    ∃ n ∈ l, f n = some a ∧ ∀ m ∈ l, m < n → f m = none := by
  obtain ⟨before, n, after, rfl, hn, hbefore⟩ := List.findSome?_eq_some_iff.1 h
  obtain ⟨-, htail, -⟩ := List.pairwise_append.1 hsorted
  obtain ⟨hafter, -⟩ := List.pairwise_cons.1 htail
  refine ⟨n, List.mem_append_right _ List.mem_cons_self, hn, fun m hm hlt => ?_⟩
  rcases List.mem_append.1 hm with hin | hin
  · exact hbefore m hin
  · rcases List.mem_cons.1 hin with rfl | hin
    · exact absurd hlt (lt_irrefl m)
    · exact absurd hlt (hafter m hin).asymm

section TryRatio

variable {need r : Nat}

/-- A ratio serves where its largest divisor reaches `need`. -/
theorem tryRatio_isSome_iff : (tryRatio need r).isSome = true ↔ need ≤ 2 ^ (r + 1) * 256 := by
  rw [← ceilDivNat_le_iff (by positivity)]
  unfold tryRatio
  split <;> simp [*]

theorem tryRatio_eq_none_iff : tryRatio need r = none ↔ 2 ^ (r + 1) * 256 < need := by
  rw [← Option.not_isSome_iff_eq_none, tryRatio_isSome_iff, Nat.not_le]

/-- The answer of a ratio that serves: its base is the least number of units, less one, and is below 256. -/
theorem tryRatio_eq_some {d : Descriptor} (hneed : 0 < need) (hr : r ≤ 3) (h : tryRatio need r = some d) :
    d.ratio.toNat = r ∧ d.base.toNat + 1 = ceilDivNat need (2 ^ (r + 1)) ∧ d.base.toNat ≤ 255 := by
  have hunits := ceilDivNat_pos (b := 2 ^ (r + 1)) hneed (by positivity)
  obtain ⟨hfits, hd⟩ := Option.ite_none_right_eq_some.1 h
  cases hd
  have hratio : r < 2 ^ 10 := by omega
  have hbase : ceilDivNat need (2 ^ (r + 1)) - 1 < 2 ^ 32 := by omega
  simp only [BitVec.toNat_ofNat, Nat.mod_eq_of_lt hratio, Nat.mod_eq_of_lt hbase]
  exact ⟨trivial, Nat.sub_add_cancel hunits, Nat.sub_le_of_le_add hfits⟩

end TryRatio

section CalcDivRef

variable {fRef : Nat} {freq : Freq} {d : Descriptor}

/-- The ratios that the algorithm tries. -/
theorem mem_ratios_iff {r : Nat} : r ∈ [0, 1, 2, 3] ↔ r ≤ 3 := by
  simp
  omega

/-- The answer is that of the least ratio that serves (41_divider R136). -/
theorem calcDivRef_eq_some (h : calcDivRef fRef freq = some d) :
    ∃ r ≤ 3, tryRatio (ceilDivNat fRef freq.toNat) r = some d ∧
      ∀ r' < r, tryRatio (ceilDivNat fRef freq.toNat) r' = none := by
  obtain ⟨r, hmem, htry, hleast⟩ := findSome?_eq_some_least (by decide) h
  have hr := mem_ratios_iff.1 hmem
  exact ⟨r, hr, htry, fun r' hlt => hleast r' (mem_ratios_iff.2 (hlt.le.trans hr)) hlt⟩

/-- An answer's fields are in range, its divisor is the least multiple of its ratio's unit that reaches `need`, and no
smaller ratio serves. -/
theorem calcDivRef_fields (hRef : 0 < fRef) (hfreq : freq ≠ 0) (h : calcDivRef fRef freq = some d) :
    d.ratio.toNat ≤ 3 ∧ d.base.toNat ≤ 255 ∧
      refDivisor d = 2 ^ (d.ratio.toNat + 1) * ceilDivNat (ceilDivNat fRef freq.toNat) (2 ^ (d.ratio.toNat + 1)) ∧
      ∀ r < d.ratio.toNat, 2 ^ (r + 1) * 256 < ceilDivNat fRef freq.toNat := by
  obtain ⟨r, hr, htry, hleast⟩ := calcDivRef_eq_some h
  have hneed := ceilDivNat_pos hRef (freq_toNat_pos hfreq)
  obtain ⟨rfl, hunits, hbase⟩ := tryRatio_eq_some hneed hr htry
  refine ⟨hr, hbase, ?_, fun r hlt => tryRatio_eq_none_iff.1 (hleast r hlt)⟩
  rw [refDivisor_eq, brVal_toNat_of_le hbase, hunits]

/-- The answer's divisor reaches `need`. -/
theorem le_refDivisor_calcDivRef (hRef : 0 < fRef) (hfreq : freq ≠ 0) (h : calcDivRef fRef freq = some d) :
    ceilDivNat fRef freq.toNat ≤ refDivisor d := by
  obtain ⟨-, -, hdivisor, -⟩ := calcDivRef_fields hRef hfreq h
  rw [hdivisor]
  exact le_mul_ceilDivNat (by positivity)

/-- The answer's divisor is the least of those that reach `need`: a smaller ratio reaches it with no base, and the
divisors of a ratio at least as large are multiples of the answer's unit (41_divider R137). -/
theorem refDivisor_calcDivRef_le (hRef : 0 < fRef) (hfreq : freq ≠ 0) (h : calcDivRef fRef freq = some d)
    {k : Descriptor} (hreach : ceilDivNat fRef freq.toNat ≤ refDivisor k) : refDivisor d ≤ refDivisor k := by
  obtain ⟨-, -, hdivisor, hleast⟩ := calcDivRef_fields hRef hfreq h
  rw [refDivisor_eq k] at hreach ⊢
  rcases lt_or_ge k.ratio.toNat d.ratio.toNat with hlt | hge
  · have hmax : 2 ^ (k.ratio.toNat + 1) * ((brVal k).toNat + 1) ≤ 2 ^ (k.ratio.toNat + 1) * 256 :=
      Nat.mul_le_mul_left _ (brVal k).isLt
    exact absurd (hreach.trans hmax) (Nat.not_le.2 (hleast _ hlt))
  · obtain ⟨e, he⟩ := Nat.exists_eq_add_of_le hge
    have hunit : 2 ^ (k.ratio.toNat + 1) = 2 ^ (d.ratio.toNat + 1) * 2 ^ e := by
      rw [he, ← pow_add, Nat.add_right_comm]
    rw [hunit, mul_assoc] at hreach ⊢
    rw [hdivisor]
    exact Nat.mul_le_mul_left _ ((ceilDivNat_le_iff (by positivity)).2 hreach)

end CalcDivRef

/-- Settles O57: the largest ratio serves wherever any does, and its largest divisor is 4096. -/
theorem referenceDomain : Obligations.ReferenceDomain := by
  refine fun fRef freq hRef hfreq => ⟨?_, fun d h => ?_⟩
  · rw [mul_comm, ← ceilDivNat_le_iff (freq_toNat_pos hfreq), calcDivRef, List.findSome?_isSome_iff]
    simp only [tryRatio_isSome_iff, mem_ratios_iff]
    constructor
    · rintro ⟨r, hr, hserves⟩
      have hunit : 2 ^ (r + 1) ≤ 2 ^ 4 := Nat.pow_le_pow_right (by decide) (Nat.succ_le_succ hr)
      omega
    · exact fun hserves => ⟨3, le_rfl, hserves⟩
  · obtain ⟨hratio, hbase, -, -⟩ := calcDivRef_fields hRef hfreq h
    exact ⟨hratio, hbase, brVal_toNat_of_le hbase⟩

/-- A rate is at most the frequency exactly where its divisor reaches `ceil_div(F_REF, freq)`. -/
theorem div_refDivisor_le_freq_iff {fRef : Nat} {freq : Freq} (hfreq : freq ≠ 0) (d : Descriptor) :
    (fRef : Rat) / refDivisor d ≤ (freq.toNat : Rat) ↔ ceilDivNat fRef freq.toNat ≤ refDivisor d := by
  have hpos : (0 : Rat) < refDivisor d := by exact_mod_cast refDivisor_pos d
  rw [div_le_iff₀ hpos, ceilDivNat_le_iff (freq_toNat_pos hfreq)]
  exact_mod_cast Iff.rfl

/-- Settles O56: rates fall as divisors rise, and the answer's divisor is the least that reaches `need`. -/
theorem referenceRateClosestBelow : Obligations.ReferenceRateClosestBelow := by
  intro fRef c hRef hrate freq d hfreq h
  have hrate_eq {k : Descriptor} (hk : k.ratio.toNat ≤ 3) : c.rate k = (fRef : Rat) / refDivisor k :=
    hrate k _ (if_pos hk)
  obtain ⟨hratio, -, -, -⟩ := calcDivRef_fields hRef hfreq h
  refine ⟨hratio, ?_, fun k hk hbelow => ?_⟩
  · exact (hrate_eq hratio).trans_le ((div_refDivisor_le_freq_iff hfreq d).2 (le_refDivisor_calcDivRef hRef hfreq h))
  · have hreach := (div_refDivisor_le_freq_iff hfreq k).1 ((hrate_eq hk).symm.trans_le hbelow)
    have hle : (refDivisor d : Rat) ≤ refDivisor k := by
      exact_mod_cast refDivisor_calcDivRef_le hRef hfreq h hreach
    have hpos : (0 : Rat) < refDivisor d := by exact_mod_cast refDivisor_pos d
    calc c.rate k = (fRef : Rat) / refDivisor k := hrate_eq hk
      _ ≤ (fRef : Rat) / refDivisor d := div_le_div_of_nonneg_left (by positivity) hpos hle
      _ = c.rate d := (hrate_eq hratio).symm

/-- The closest rate from below is a rate from below (41_divider R132, R134). -/
theorem rateNotExceeded_of_rateClosestBelow {c : Config.Params} {accepts : Descriptor → Prop}
    (h : c.RateClosestBelow accepts) : c.RateNotExceeded := by
  intro freq d hfreq hd
  obtain ⟨-, hbelow, -⟩ := h freq d hfreq hd
  exact hbelow

/-- Settles O55: the reference instance is closest from below. -/
theorem referenceRateNotExceeded : Obligations.ReferenceRateNotExceeded :=
  fun fRef c hRef hrate => rateNotExceeded_of_rateClosestBelow (referenceRateClosestBelow fRef c hRef hrate)

end Sys2Proof.Machine

namespace Sys2Proof.Machine

/-! ### BEGIN, END and ENDTRANS (42_lifecycle) -/

section Lifecycle

variable {c : Config.Params} {s : State}

/-- BEGIN on a closed session opens it and sets the flag (42_lifecycle R150). -/
theorem beginOn_of_closed_unmarked (hflag : s.initialized = false) (hclosed : s.halOpen = false) :
    beginOn c s = .next { s with
      initialized := true, halOpen := true, cmd0 := c.cmdOpenDefault, br := c.brOpenDefault,
      hist := s.hist ++ [.halOpen], seq := .idle } :=
  beginOn_eq_next_iff.2 (.inr ⟨hflag, hclosed, rfl⟩)

/-- BEGIN with the flag set only passes the sequencer through RUN. -/
theorem beginOn_of_marked (hflag : s.initialized = true) : beginOn c s = .next (s.withSeq .idle) :=
  beginOn_eq_next_iff.2 (.inl ⟨hflag, rfl⟩)

/-- Between operations, BEGIN with the flag set changes nothing. -/
theorem beginOn_of_marked_idle (hflag : s.initialized = true) (hidle : s.seq = .idle) : beginOn c s = .next s := by
  rw [beginOn_of_marked hflag, withSeq_idle_of_idle hidle]

/-- An open of an open session is outside the contract of `HalOpen` (10_state R31). -/
theorem openAndMark_of_open (hopen : s.halOpen = true) : openAndMark c s = .fault .openWhileOpen := by
  have hfault : halOpen c s = .fault .openWhileOpen := if_pos hopen
  rw [openAndMark, hfault, andThen_fault]

/-- BEGIN does not look at the session before it opens it: with the flag clear an open one is a fault (60_exceptions
R186). -/
theorem beginOn_of_open_unmarked (hflag : s.initialized = false) (hopen : s.halOpen = true) :
    beginOn c s = .fault .openWhileOpen := by
  have hfault : openAndMark c (s.withSeq .run) = .fault .openWhileOpen := openAndMark_of_open hopen
  simp [beginOn, runOp, hflag, hfault]

/-- END clears the flag alone where END_CLOSES is off or the flag is already clear (42_lifecycle R151). -/
theorem endOn_of_kept (hkeep : c.endCloses = false ∨ s.initialized = false) :
    endOn c s = .next { s with initialized := false, seq := .idle } :=
  endOn_eq_next_iff.2 (.inl ⟨hkeep, rfl⟩)

/-- Clearing a clear flag only passes the sequencer to IDLE. -/
theorem clear_flag_of_unmarked (hflag : s.initialized = false) :
    { s with initialized := false, seq := .idle } = s.withSeq .idle := by
  rw [← hflag]; rfl

end Lifecycle

/-- Settles O20: BEGIN split by the flag and the session; the second BEGIN meets the flag that the first one set. -/
theorem beginOpensOnce : Obligations.BeginOpensOnce := by
  refine ⟨rfl, fun s => ?_⟩
  simp only [exec_eq_execOn, execOn]
  refine ⟨beginOn_of_closed_unmarked, beginOn_of_marked, beginOn_of_marked_idle, fun hflag hclosed => ?_,
    beginOn_of_open_unmarked⟩
  exact ⟨_, beginOn_of_closed_unmarked hflag hclosed, beginOn_of_marked_idle rfl rfl, by simp [State.opens]⟩

/-- Settles O21: END_CLOSES is off on this machine, so END clears the flag alone. -/
theorem endClearsFlagOnly : Obligations.EndClearsFlagOnly := by
  refine ⟨rfl, fun s => ?_⟩
  have hclears : exec .opEnd s = .next { s with initialized := false, seq := .idle } := by
    rw [exec_eq_execOn]
    exact endOn_of_kept (.inl rfl)
  refine ⟨hclears, fun hflag hidle => ?_⟩
  rw [hclears, clear_flag_of_unmarked hflag, withSeq_idle_of_idle hidle]

/-- Settles O22: the invariant supplies the open session that the close needs. -/
theorem endClosesByOption : Obligations.EndClosesByOption := by
  intro c s hsound
  refine ⟨fun hopt => endOn_of_kept (.inl hopt), fun _ hflag => ?_, fun hopt hflag => ?_⟩
  · have hclears : execOn c .opEnd s = _ := endOn_of_kept (.inr hflag)
    rw [hclears, clear_flag_of_unmarked hflag]
    rfl
  · exact endOn_eq_next_iff.2 (.inr ⟨hopt, hflag, hsound hflag, rfl⟩)

/-- Settles O23: ENDTRANS has an empty body. -/
theorem endTransNoEffect : Obligations.EndTransNoEffect := by
  refine ⟨rfl, fun s => ?_⟩
  have hrun : exec .endTrans s = .next (s.withSeq .idle) := runOp_noop s
  refine ⟨hrun, fun hidle => ?_⟩
  rw [hrun, withSeq_idle_of_idle hidle]

end Sys2Proof.Machine

namespace Sys2Proof.Machine

/-! ### Transfers: where they stop and what they exchange (43_transfer) -/

section Transfers

variable {c : Config.Params} {s : State} {addr : Addr} {count : BitVec 24}

/-- An operation faults as its body does. -/
theorem runOp_of_fault {body : State → Result State} {r : Fault} (h : body (s.withSeq .run) = .fault r) :
    runOp body s = .fault r := by
  rw [runOp, h, andThen_fault]

/-- XFER8 on a closed session is outside the contract of `HalWriteRead` (10_state R31, 60_exceptions R186). -/
theorem xfer8On_of_closed {data : Byte} (hclosed : s.halOpen = false) :
    xfer8On c data s = .fault .transferNotOpen :=
  runOp_of_fault (by simp [halWriteRead8, hclosed])

/-- XFER16 on a closed session is outside the contract of `HalWriteRead` (10_state R31, 60_exceptions R186). -/
theorem xfer16On_of_closed {data : Half} (hclosed : s.halOpen = false) :
    xfer16On c data s = .fault .transferNotOpen :=
  runOp_of_fault (by simp [halWriteRead16, hclosed])

/-- XFERBUF with a wrapping buffer is refused, whatever the session is (60_exceptions R185). -/
theorem xferBufOn_of_wraps (hwraps : bufferFits addr count = false) :
    xferBufOn c addr count s = .refused .bufferWraps := by
  simp [xferBufOn, hwraps]

/-- XFERBUF with a buffer that does not wrap faults on a closed session (43_transfer R164). -/
theorem xferBufOn_of_closed (hfit : bufferFits addr count = true) (hclosed : s.halOpen = false) :
    xferBufOn c addr count s = .fault .transferNotOpen := by
  have hbody : halWriteReadBuffer c addr count.toNat (s.withSeq .run) = .fault .transferNotOpen := by
    simp [halWriteReadBuffer, hclosed]
  rw [xferBufOn, if_pos hfit, runOp_of_fault hbody]

/-- Unit `i` of an exchange is the bus oracle's answer at index `i` (43_transfer R163). -/
@[simp] theorem getElem_busUnits (c : Config.Params) (w n : Nat) {units i : Nat}
    (hi : i < (busUnits c w n units).length) : (busUnits c w n units)[i] = c.busUnit w n i := by
  simp [busUnits]

/-- XFERBUF's buffer reads back as the received units (43_transfer R162). -/
theorem read_writeUnits_busUnits {m : Memory} (hmem : m.wf = true) (hfit : addr.toNat + count.toNat ≤ 2 ^ 32)
    (n : Nat) {i : Nat} (hi : i < count.toNat) :
    (writeUnits m addr (busUnits c 8 n count.toNat)).read (addr.toNat + i) = c.busUnit 8 n i := by
  rw [read_writeUnits_inside hmem (by rwa [busUnits_length]) (by rwa [busUnits_length]), getElem_busUnits]

/-- What completes exactly on an open session, faults on a closed one and carries the flag through unread needs the
session and no flag (43_transfer R164). -/
theorem needsSession_of_spec {run : State → Result State} {after : State → State}
    (hrun : ∀ s t, run s = .next t ↔ s.halOpen = true ∧ t = after s)
    (hclosed : ∀ s, s.halOpen = false → run s = .fault .transferNotOpen)
    (hflag : ∀ s flag, after (s.withInitialized flag) = (after s).withInitialized flag) (s : State) :
    ((∃ t, run s = .next t) ↔ s.halOpen = true) ∧
    (s.halOpen = false → run s = .fault .transferNotOpen) ∧
    ∀ (flag : Bool) (t : State), run s = .next t →
      run (s.withInitialized flag) = .next (t.withInitialized flag) := by
  refine ⟨by simp [hrun], hclosed s, fun flag t h => ?_⟩
  obtain ⟨hopen, rfl⟩ := (hrun s t).1 h
  exact (hrun _ _).2 ⟨hopen, (hflag s flag).symm⟩

end Transfers

/-- Settles O42: the new memory is the received units written over the buffer, and the rest is the completion of
XFERBUF. -/
theorem xferBufExchangesInPlace : Obligations.XferBufExchangesInPlace := by
  intro addr count s hmem hfit hopen
  have hrun : xferBufOn Config.params addr count s = .next _ :=
    xferBufOn_eq_next_iff.2 ⟨decide_eq_true hfit, hopen, rfl⟩
  refine ⟨writeUnits s.mem addr (busUnits Config.params 8 s.draws count.toNat), wf_writeUnits hmem _ _,
    fun i hi => ?_, fun a ha => ?_, ?_⟩
  · exact read_writeUnits_busUnits hmem hfit s.draws hi
  · exact xferBufOn_keeps_outside hrun ha
  · rw [exec_eq_execOn]
    exact hrun

/-- Settles O44: each of the three forms completes exactly on an open session, and no update of its completion reads
the flag. -/
theorem transferNeedsSession : Obligations.TransferNeedsSession := by
  intro c i s hi hwf
  cases i with
  | xfer8 data =>
    exact needsSession_of_spec (fun _ _ => xfer8On_eq_next_iff) (fun _ => xfer8On_of_closed) (fun _ _ => rfl) s
  | xfer16 data =>
    exact needsSession_of_spec (fun _ _ => xfer16On_eq_next_iff) (fun _ => xfer16On_of_closed) (fun _ _ => rfl) s
  | xferBuf addr count =>
    have hfit : bufferFits addr count = true := hwf
    exact needsSession_of_spec (fun _ _ => xferBufOn_eq_next_iff.trans (and_iff_right hfit))
      (fun _ => xferBufOn_of_closed hfit) (fun _ _ => rfl) s
  | opBegin | opEnd | beginTrans | endTrans | usingInt | notUsingInt | attachInt | detachInt | callback =>
    simp [Instr.mnemonic] at hi

/-- Settles O40: the completion of XFER8 at this machine's parameters. -/
theorem xfer8Exchanges : Obligations.Xfer8Exchanges := by
  intro data s hopen
  rw [exec_eq_execOn]
  exact xfer8On_eq_next_iff.2 ⟨hopen, rfl⟩

/-- Settles O41: the completion of XFER16 at this machine's parameters. -/
theorem xfer16Exchanges : Obligations.Xfer16Exchanges := by
  intro data s hopen
  rw [exec_eq_execOn]
  exact xfer16On_eq_next_iff.2 ⟨hopen, rfl⟩

/-- Settles O43: the wrap check comes first, and a buffer that passes it meets the session check. -/
theorem xferBufStops : Obligations.XferBufStops := by
  intro addr count s
  rw [exec_eq_execOn]
  exact ⟨fun hwraps => xferBufOn_of_wraps (decide_eq_false hwraps.not_ge),
    fun hfit => xferBufOn_of_closed (decide_eq_true hfit)⟩

end Sys2Proof.Machine

namespace Sys2Proof.Machine

/-! ### Hooks and the event callback (44_interrupt_hooks) -/

/-- Between operations, an operation with an empty body changes nothing. -/
theorem runOp_noop_of_idle {s : State} (hidle : s.seq = .idle) : runOp (fun s => .next s) s = .next s := by
  rw [runOp_noop, withSeq_idle_of_idle hidle]

/-- Every completed operation leaves the sequencer IDLE (10_state R28). -/
theorem seq_idle_of_execOn {c : Config.Params} {i : Instr} {s t : State} (h : execOn c i s = .next t) :
    t.seq = .idle := by
  cases completion_of_execOn h with
  | beginMarked | beginOpened | endCleared | endClosed | configured | sessionKept => rfl

/-- Settles O48, by induction on the operations before the CALLBACK: each one that completes leaves the sequencer IDLE,
where CALLBACK changes nothing, and one that stops ends both runs alike. -/
theorem callbackCommutes : Obligations.CallbackCommutes := by
  intro c before after evt s hidle
  induction before generalizing s with
  | nil =>
    have hcallback : execOn c (.callback evt) s = .next s := runOp_noop_of_idle hidle
    rw [List.nil_append, List.nil_append, runOn, hcallback, andThen_next]
  | cons i before ih =>
    rw [List.cons_append, List.cons_append, runOn, runOn]
    cases hrun : execOn c i s with
    | next t => exact ih t (seq_idle_of_execOn hrun)
    | fault r => rfl
    | refused r => rfl

/-- Settles O46: the words are the encoder's, and each hook has an empty body. -/
theorem hooksNoEffect : Obligations.HooksNoEffect := by
  refine ⟨fun id => ⟨rfl, rfl⟩, rfl, rfl, fun id s => ?_⟩
  have hrun := runOp_noop s
  refine ⟨hrun, hrun, hrun, hrun, fun hidle => ?_⟩
  have hkept := runOp_noop_of_idle hidle
  exact ⟨hkept, hkept, hkept, hkept⟩

/-- Settles O47: an event word carries no code to reject, and CALLBACK has an empty body. -/
theorem callbackNoEffect : Obligations.CallbackNoEffect :=
  fun _ s => ⟨rfl, runOp_noop s, runOp_noop_of_idle⟩

end Sys2Proof.Machine

namespace Sys2Proof.Machine

/-! ### How an operation and a step stop (60_exceptions R185 to R187) -/

/-- What an operation on `s` can answer: it completes, or it stops for one of these reasons. Nothing is said here of
the state a completion leaves (see `Completion`). -/
inductive Answer (s : State) : Instr → Result State → Prop where
  | completed {i : Instr} (t : State) : Answer s i (.next t)
  | beginOnOpen (hflag : s.initialized = false) (hopen : s.halOpen = true) :
    Answer s .opBegin (.fault .openWhileOpen)
  | beginTransOnOpen {mode : BitVec 2} {order : Byte} {freq : Freq} (hfreq : freq ≠ 0)
    (hflag : s.initialized = false) (hopen : s.halOpen = true) :
    Answer s (.beginTrans mode order freq) (.fault .openWhileOpen)
  | closeOnClosed {i : Instr} (hflag : s.initialized = true) (hclosed : s.halOpen = false) :
    Answer s i (.fault .closeWhileClosed)
  | transferOnClosed {i : Instr} (hclosed : s.halOpen = false) : Answer s i (.fault .transferNotOpen)
  | notWellFormed {i : Instr} (r : Refusal) (hwf : i.wf = false) : Answer s i (.refused r)

section Answers

variable {c : Config.Params} {s : State}

/-- With END_CLOSES, END closes wherever the flag is set, whatever the session is. -/
theorem endOn_of_closed_marked (hopt : c.endCloses = true) (hflag : s.initialized = true)
    (hclosed : s.halOpen = false) : endOn c s = .fault .closeWhileClosed := by
  have hclose : closeIfInitialized c (s.withSeq .run) = .fault .closeWhileClosed := by
    simp [closeIfInitialized, halClose, hflag, hclosed]
  exact runOp_of_fault (by rw [if_pos hopt, hclose, andThen_fault])

theorem answer_beginOn : Answer s .opBegin (beginOn c s) := by
  cases hflag : s.initialized with
  | true => exact beginOn_of_marked hflag ▸ .completed _
  | false =>
    cases hopen : s.halOpen with
    | true => exact beginOn_of_open_unmarked hflag hopen ▸ .beginOnOpen hflag hopen
    | false => exact beginOn_of_closed_unmarked hflag hopen ▸ .completed _

theorem answer_endOn : Answer s .opEnd (endOn c s) := by
  by_cases hkeep : c.endCloses = false ∨ s.initialized = false
  · exact endOn_of_kept hkeep ▸ .completed _
  · obtain ⟨hopt, hflag⟩ : c.endCloses = true ∧ s.initialized = true := by simpa using hkeep
    cases hopen : s.halOpen with
    | true => exact endOn_eq_next_iff.2 (.inr ⟨hopt, hflag, hopen, rfl⟩) ▸ .completed _
    | false => exact endOn_of_closed_marked hopt hflag hopen ▸ .closeOnClosed hflag hopen

theorem answer_beginTransOn (mode : BitVec 2) (order : Byte) (freq : Freq) :
    Answer s (.beginTrans mode order freq) (beginTransOn c mode order freq s) := by
  by_cases hfreq : freq = 0
  · subst hfreq
    exact beginTransOn_of_freq_zero ▸ .notWellFormed _ rfl
  · cases hflag : s.initialized <;> cases hopen : s.halOpen
    case false.true => exact beginTransOn_of_open_unmarked hfreq hflag hopen ▸ .beginTransOnOpen hfreq hflag hopen
    case true.false => exact beginTransOn_of_closed_marked hfreq hflag hopen ▸ .closeOnClosed hflag hopen
    all_goals exact beginTransOn_of_agree hfreq (hflag.trans hopen.symm) ▸ .completed _

/-- What completes on an open session and faults on a closed one answers as a transfer does (43_transfer R164). -/
theorem answer_of_session {i : Instr} {o : Result State} {t : State} (hnext : s.halOpen = true → o = .next t)
    (hfault : s.halOpen = false → o = .fault .transferNotOpen) : Answer s i o := by
  cases hopen : s.halOpen with
  | true => exact hnext hopen ▸ .completed t
  | false => exact hfault hopen ▸ .transferOnClosed hopen

theorem answer_xferBufOn (addr : Addr) (count : BitVec 24) :
    Answer s (.xferBuf addr count) (xferBufOn c addr count s) := by
  cases hfit : bufferFits addr count with
  | false => exact xferBufOn_of_wraps hfit ▸ .notWellFormed _ hfit
  | true =>
    exact answer_of_session (fun hopen => xferBufOn_eq_next_iff.2 ⟨hfit, hopen, rfl⟩) (xferBufOn_of_closed hfit)

/-- Every operation on every instance answers in one of these ways. -/
theorem answer_execOn (c : Config.Params) (i : Instr) (s : State) : Answer s i (execOn c i s) := by
  cases i with
  | opBegin => exact answer_beginOn
  | opEnd => exact answer_endOn
  | beginTrans mode order freq => exact answer_beginTransOn mode order freq
  | xfer8 data => exact answer_of_session (fun hopen => xfer8On_eq_next_iff.2 ⟨hopen, rfl⟩) xfer8On_of_closed
  | xfer16 data => exact answer_of_session (fun hopen => xfer16On_eq_next_iff.2 ⟨hopen, rfl⟩) xfer16On_of_closed
  | xferBuf addr count => exact answer_xferBufOn addr count
  | endTrans | usingInt | notUsingInt | attachInt | detachInt | callback => exact .completed _

/-- Every way that taking an input faults (60_exceptions R185). -/
theorem acceptNext_eq_fault_iff {run : Instr → State → Result State} {r : Fault} :
    acceptNext run s = .fault r ↔ ∃ inp rest, s.pending = inp :: rest ∧
      ((s.seq ≠ .idle ∧ r = .notIdle) ∨
        (s.seq = .idle ∧ ∃ i, decodeInput inp = .ok i ∧ run i (s.withPending rest) = .fault r)) := by
  unfold acceptNext
  cases hpending : s.pending with
  | nil => simp
  | cons inp rest =>
    by_cases hidle : s.seq = .idle
    · cases hdecode : decodeInput inp <;> simp [hidle, hdecode]
    · simp [hidle, eq_comm]

/-- Every way that taking an input is refused (60_exceptions R187). -/
theorem acceptNext_eq_refused_iff {run : Instr → State → Result State} {r : Refusal} :
    acceptNext run s = .refused r ↔ ∃ inp rest, s.pending = inp :: rest ∧ s.seq = .idle ∧
      ((∃ e, decodeInput inp = .error e ∧ r = refusalOf e) ∨
        ∃ i, decodeInput inp = .ok i ∧ run i (s.withPending rest) = .refused r) := by
  unfold acceptNext
  cases hpending : s.pending with
  | nil => simp
  | cons inp rest =>
    by_cases hidle : s.seq = .idle
    · cases hdecode : decodeInput inp <;> simp [hidle, hdecode, eq_comm]
    · simp [hidle]

end Answers

/-- A refused operation is not well formed. -/
theorem not_wf_of_execOn_refused {c : Config.Params} {i : Instr} {s : State} {r : Refusal}
    (h : execOn c i s = .refused r) : i.wf = false := by
  cases h ▸ answer_execOn c i s with
  | notWellFormed _ hwf => exact hwf

/-- The refusals of a step are the decoder's: what it decodes is well formed, so running it is never refused. -/
theorem exists_refusalOf_of_stepOn_refused {c : Config.Params} {s : State} {r : Refusal} (h : stepOn c s = .refused r) :
    ∃ e, r = refusalOf e := by
  obtain ⟨inp, rest, -, -, ⟨e, -, he⟩ | ⟨i, hdecode, hrun⟩⟩ := acceptNext_eq_refused_iff.1 h
  · exact ⟨e, he⟩
  · obtain ⟨-, hwf⟩ := decodeInput_eq_ok_iff.1 hdecode
    simp [not_wf_of_execOn_refused hrun] at hwf

/-- Settles O16: a reachable state is idle and has the flag only with the session, which excludes the model's two other
faults. -/
theorem reachableFaultList : Obligations.ReachableFaultList := by
  intro c s r hs h
  obtain ⟨hsession, ⟨hidle, -⟩, -⟩ := hs.inv
  obtain ⟨inp, rest, -, ⟨hbusy, -⟩ | ⟨-, i, -, hrun⟩⟩ := acceptNext_eq_fault_iff.1 h
  · exact absurd hidle hbusy
  · cases hrun ▸ answer_execOn c i (s.withPending rest) with
    | beginOnOpen | beginTransOnOpen => exact .inl rfl
    | transferOnClosed => exact .inr rfl
    | closeOnClosed hflag hclosed =>
      have hopen : s.halOpen = true := hsession hflag
      exact (Bool.false_ne_true (hclosed.symm.trans hopen)).elim

/-- Settles O17: the refusals are the names of the decoder's four verdicts. -/
theorem stepRefusalList : Obligations.StepRefusalList := by
  intro c s r h
  obtain ⟨e, rfl⟩ := exists_refusalOf_of_stepOn_refused h
  cases e <;> simp [refusalOf]

/-- Settles O18: among the answers only an opening operation's two name this fault, and each such operation does give
it. -/
theorem openWhileOpenExactly : Obligations.OpenWhileOpenExactly := by
  intro c i s
  constructor
  · intro h
    cases h ▸ answer_execOn c i s with
    | beginOnOpen hflag hopen => exact ⟨.inl rfl, hflag, hopen⟩
    | beginTransOnOpen hfreq hflag hopen => exact ⟨.inr ⟨_, _, _, hfreq, rfl⟩, hflag, hopen⟩
  · rintro ⟨rfl | ⟨mode, order, freq, hfreq, rfl⟩, hflag, hopen⟩
    · exact beginOn_of_open_unmarked hflag hopen
    · exact beginTransOn_of_open_unmarked hfreq hflag hopen

end Sys2Proof.Machine

namespace Sys2Proof.Machine

/-! ### END_CLOSES, and runs without END (70_reset_and_hazards R207) -/

/-- Settles O19: the fault needs an open session with the flag clear, and with END_CLOSES flag and session are equal in
every reachable state. -/
theorem endClosesNeverDoubleOpens : Obligations.EndClosesNeverDoubleOpens := by
  intro c s hopt hs h
  obtain ⟨inp, rest, -, ⟨-, hbusy⟩ | ⟨-, i, -, hrun⟩⟩ := acceptNext_eq_fault_iff.1 h
  · cases hbusy
  · obtain ⟨-, hflag, hopen⟩ := (openWhileOpenExactly c i (s.withPending rest)).1 hrun
    have hagree : s.initialized = s.halOpen := hs.flag_eq_session hopt
    exact Bool.false_ne_true (hflag.symm.trans (hagree.trans hopen))

section MarkedOpen

variable {c : Config.Params} {i : Instr} {s t : State}

/-- From an open session with the flag set every well-formed operation completes, END included. -/
theorem execOn_completes_of_marked_open (hwf : i.wf = true) (hflag : s.initialized = true) (hopen : s.halOpen = true) :
    ∃ t, execOn c i s = .next t := by
  have hanswer := answer_execOn c i s
  generalize execOn c i s = o at hanswer ⊢
  cases hanswer with
  | completed t => exact ⟨t, rfl⟩
  | beginOnOpen hclear | beginTransOnOpen _ hclear => simp [hflag] at hclear
  | closeOnClosed _ hclosed | transferOnClosed hclosed => simp [hopen] at hclosed
  | notWellFormed _ hbad => simp [hwf] at hbad

/-- Every completed operation but END keeps the session open and the flag set. -/
theorem execOn_keeps_marked_open (hi : i ≠ .opEnd) (hflag : s.initialized = true) (hopen : s.halOpen = true)
    (h : execOn c i s = .next t) : t.initialized = true ∧ t.halOpen = true := by
  cases completion_of_execOn h with
  | beginMarked | sessionKept => exact ⟨hflag, hopen⟩
  | beginOpened | configured => exact ⟨rfl, rfl⟩
  | endCleared | endClosed => exact absurd rfl hi

end MarkedOpen

/-- Settles O45, by induction on the operations: each one completes and keeps session and flag for the next. -/
theorem noEndNoStop : Obligations.NoEndNoStop := by
  intro c is s hflag hopen his
  induction is generalizing s with
  | nil => exact ⟨s, rfl, hflag, hopen⟩
  | cons i is ih =>
    obtain ⟨⟨hwf, hi⟩, hrest⟩ := List.forall_mem_cons.1 his
    obtain ⟨u, hrun⟩ := execOn_completes_of_marked_open (c := c) hwf hflag hopen
    obtain ⟨hflag', hopen'⟩ := execOn_keeps_marked_open hi hflag hopen hrun
    rw [runOn, hrun, andThen_next]
    exact ih u hflag' hopen' hrest

/-! ### Inside BEGINTRANS, after a transaction, and without input (70_reset_and_hazards R200, R211, R214) -/

/-- Settles O38: the reopen loads the open default into the bit-rate register, and step 8 writes that register second;
nothing after the first write touches the command register. -/
theorem mixedSettingBetweenWrites : Obligations.MixedSettingBetweenWrites := by
  intro c mode order freq s closed opened hfreq hclose hreopen
  have hrun : execOn c (.beginTrans mode order freq) s = .next (btFinish c opened) := by
    rw [execOn, beginTransOn, if_neg hfreq, hclose, andThen_next, hreopen, andThen_next]
  obtain ⟨-, rfl⟩ := btReopen_eq_next_iff.1 hreopen
  exact ⟨_, hrun, rfl, rfl, rfl, rfl⟩

/-- Settles O10: with no input pending a step completes with the state it found. -/
theorem stepWaitsWithoutInput : Obligations.StepWaitsWithoutInput :=
  fun _ hpending => acceptNext_eq_next_iff.2 (.inl ⟨hpending, rfl⟩)

/-- Settles O51: END updates only the flag and the sequencer, ENDTRANS only the sequencer. -/
theorem settingsOutliveTransaction : Obligations.SettingsOutliveTransaction := by
  rintro i s t (rfl | rfl) h
  · obtain ⟨-, hend⟩ := endClearsFlagOnly
    obtain ⟨hclears, -⟩ := hend s
    cases hclears.symm.trans h
    exact ⟨rfl, rfl, rfl, rfl, rfl⟩
  · obtain ⟨-, hendTrans⟩ := endTransNoEffect
    obtain ⟨hrun, -⟩ := hendTrans s
    cases hrun.symm.trans h
    exact ⟨rfl, rfl, rfl, rfl, rfl⟩

end Sys2Proof.Machine
